-- ==== Sys2Proof/Word.lean ====
section
/-! DEFINITION. The word of the three lines: one byte (spec/12, 12.1). All other quantities of the part are whole numbers (spec/00, UNITS AND NUMBERS). -/

namespace Sys2Proof

/-- One byte on a line: eight data bits (spec/12, 12.1). -/
abbrev Byte := BitVec 8

end Sys2Proof
end

