-- ==== Sys2Proof/Config.lean ====
section
/-! DEFINITION. What the spec leaves open, as constants without a body: nothing can be proved of their values. -/

namespace Sys2Proof

/-- The lists of names whose wire codes no table of the spec gives (spec/12 Table 12-9 gives the other lists). -/
inductive CodeList where
  | accountState | stopCause | trackerState | channelState | liveness | lineCondition | floorCondition
  | ringStall | heldCauses | lotState | chuteState | suspendCause | pendingOutcome | gateState | screwState
  deriving DecidableEq, Repr

/-- Free value: the byte that stands for the `n`-th name of a list the spec gives no codes for.
DESIGN CHOICE, log 6. Safe: no statement can rest on the byte. -/
opaque Config.code : CodeList → Nat → Byte

/-- Free value: the byte an absent field of such a list carries. DESIGN CHOICE, log 6. Safe. -/
opaque Config.absentCode : CodeList → Byte

/-- Free value: the `k`-th choice where the spec says that either order may occur inside one step
(R148, R177, R192). `k` is the field `choices` of the state. DESIGN CHOICE, log 5. Safe. -/
opaque Config.freeChoice : Nat → Nat

/-- Free value: the destination address of the frames the part sends on the floor line; the spec gives the
concentrator no address. DESIGN CHOICE, log 6. Safe. -/
opaque Config.floorAddress : Byte

end Sys2Proof
end

