-- ==== Sys2Proof/Syntax.lean ====
section
/-! DEFINITION. The commands the part takes: one constructor for each row of spec/opcode_table.json, with its operands. -/

namespace Sys2Proof

/-- The three serial lines (spec/00, THE HALL AND ITS THREE LINES). -/
inductive LineId where
  | quay | floor | office
  deriving DecidableEq, Repr

/-- The four rings (spec/00 Table 0-3). -/
inductive RingNo where
  | r1 | r2 | r3 | r4
  deriving DecidableEq, Repr

/-- A frame that has passed the tests of R150: the addresses, kind and payload of Table 12-1. -/
structure Frame where
  dst : Byte
  src : Byte
  kind : Byte
  payload : List Byte
  deriving DecidableEq, Repr

/-- The commands. Operands named `f` are whole frames; `src` and `payload` are the source address and the payload
of an office request (destination 0, kind of Table 12-6); `body` is a LOAD or READ payload after its table code. -/
inductive Instr where
  -- the part and its clock
  | powerOn
  | hallTick
  -- line events: `wire` is the bytes between the flags as received, `bad` a bad stop bit or a cut frame;
  -- `spacing` is how long (ms) the line has been spacing, `cut` that a frame was being gathered
  | frameEnd (line : LineId) (wire : List Byte) (bad : Bool)
  | lineBreak (line : LineId) (spacing : Nat) (cut : Bool)
  | breakEnd (line : LineId)
  | frameSent (line : LineId)
  | floorSilence
  -- quay poller
  | cycleTimerWrap
  | replyTimeout
  | quayReply (f : Frame)
  | foreignPoll (f : Frame)
  | heardReply (f : Frame)
  | hearingExpiry (station : Nat)
  | breakTimerExpiry
  -- weigh, floor, rings, ice, gates, boards
  | captureTimeout (station : Nat)
  | floorStop (f : Frame)
  | offerStart (ring : RingNo)
  | claimTopUp (ring : RingNo)
  | pauseExpiry (ring : RingNo)
  | stepWrap (ring : RingNo)
  | resolveExpiry (ring : RingNo)
  | afterSaleExpiry (ring : RingNo)
  | screwGrant
  | iceWaitTimeout (station : Nat)
  | gateIdleTimeout (station : Nat)
  | paceExpiry (ring : RingNo)
  -- operating state
  | run (src : Byte) (payload : List Byte)
  | restart (src : Byte) (payload : List Byte)
  -- LOAD
  | loadHall (src : Byte) (body : List Byte)
  | loadStations (src : Byte) (body : List Byte)
  | loadSpecies (src : Byte) (body : List Byte)
  | loadProfiles (src : Byte) (body : List Byte)
  | loadCrates (src : Byte) (body : List Byte)
  | loadKeypads (src : Byte) (body : List Byte)
  | loadAccounts (src : Byte) (body : List Byte)
  | loadBoardText (src : Byte) (body : List Byte)
  | loadNotLoadable (src : Byte) (payload : List Byte)
  -- READ
  | readHall (src : Byte) (body : List Byte)
  | readStations (src : Byte) (body : List Byte)
  | readSpecies (src : Byte) (body : List Byte)
  | readProfiles (src : Byte) (body : List Byte)
  | readCrates (src : Byte) (body : List Byte)
  | readKeypads (src : Byte) (body : List Byte)
  | readAccounts (src : Byte) (body : List Byte)
  | readBoardText (src : Byte) (body : List Byte)
  | readLots (src : Byte) (body : List Byte)
  | readHolds (src : Byte) (body : List Byte)
  -- account commands
  | stopAccount (src : Byte) (payload : List Byte)
  | openAccount (src : Byte) (payload : List Byte)
  | transfer (src : Byte) (payload : List Byte)
  | settle (src : Byte) (payload : List Byte)
  | placeHold (src : Byte) (payload : List Byte)
  | releaseHold (src : Byte) (payload : List Byte)
  -- ring and lot commands
  | startRing (src : Byte) (payload : List Byte)
  | stopRing (src : Byte) (payload : List Byte)
  | hold (src : Byte) (payload : List Byte)
  | release (src : Byte) (payload : List Byte)
  | withdraw (src : Byte) (payload : List Byte)
  | moveLot (src : Byte) (payload : List Byte)
  | setReserve (src : Byte) (payload : List Byte)
  -- ice, crate pool and record commands
  | setFloor (src : Byte) (payload : List Byte)
  | cancelRequest (src : Byte) (payload : List Byte)
  | poolAdjust (src : Byte) (payload : List Byte)
  | stocktake (src : Byte) (payload : List Byte)
  | collect (src : Byte) (payload : List Byte)
  -- poller, port, board, notice and time commands
  | resumePoll (src : Byte) (payload : List Byte)
  | clearCounters (src : Byte) (payload : List Byte)
  | showLines (src : Byte) (payload : List Byte)
  | noticeRead (src : Byte) (payload : List Byte)
  | noticeClear (src : Byte) (payload : List Byte)
  | timeSet (src : Byte) (payload : List Byte)
  -- other office frames
  | relay (f : Frame)
  | unknownRequest (f : Frame)
  | badDestination (f : Frame)
  | readBadTable (src : Byte) (payload : List Byte)
  deriving DecidableEq, Repr

end Sys2Proof
end

