-- ==== Sys2Proof/WellFormed.lean ====
section
/-! DEFINITION. When a command's operands can be what its row of the table says: addresses in their numbering, payloads
within the envelope (Table 12-1), and a frame of the row's own kind. -/

namespace Sys2Proof

/-- A payload of the envelope: at most 120 bytes (Table 12-1). -/
def payloadFits (p : List Byte) : Bool := p.length ≤ 120

/-- The body of a LOAD or READ after its table code: at most 119 bytes. -/
def bodyFits (p : List Byte) : Bool := p.length ≤ 119

/-- A quay station address, 1 to 30 (Table 0-3). -/
def isStation (a : Nat) : Bool := 1 ≤ a && a ≤ 30

/-- A frame whose kind is one of those given and whose payload fits the envelope. -/
def frameOfKinds (ks : List Nat) (f : Frame) : Bool := ks.contains f.kind.toNat && payloadFits f.payload

/-- A table code that a LOAD can name: HALL 1 to BOARD TEXT 8 (spec/12, 12.5). -/
def loadableCode (b : Byte) : Bool := 1 ≤ b.toNat && b.toNat ≤ 8

/-- A table code that a READ can name: 1 to 10 (spec/12, 12.5). -/
def readableCode (b : Byte) : Bool := 1 ≤ b.toNat && b.toNat ≤ 10

/-- A management request kind: 20 to 3B hexadecimal (Table 12-2). -/
def isRequestKind (b : Byte) : Bool := 0x20 ≤ b.toNat && b.toNat ≤ 0x3B

/-- The check of a command's operands. -/
def Instr.wellFormed : Instr → Bool
  | .powerOn | .hallTick | .floorSilence | .cycleTimerWrap | .replyTimeout | .breakTimerExpiry | .screwGrant => true
  | .frameEnd _ _ _ | .lineBreak _ _ _ | .breakEnd _ | .frameSent _ => true
  | .quayReply f | .heardReply f => frameOfKinds [0x02] f
  | .foreignPoll f => frameOfKinds [0x01, 0x03] f && f.src != 0
  | .floorStop f => frameOfKinds [0x11] f && f.dst == 0
  | .hearingExpiry a | .captureTimeout a | .iceWaitTimeout a | .gateIdleTimeout a => isStation a
  | .offerStart _ | .claimTopUp _ | .pauseExpiry _ | .stepWrap _ | .resolveExpiry _ | .afterSaleExpiry _
  | .paceExpiry _ => true
  | .loadHall _ b | .loadStations _ b | .loadSpecies _ b | .loadProfiles _ b | .loadCrates _ b | .loadKeypads _ b
  | .loadAccounts _ b | .loadBoardText _ b => bodyFits b
  | .readHall _ b | .readStations _ b | .readSpecies _ b | .readProfiles _ b | .readCrates _ b | .readKeypads _ b
  | .readAccounts _ b | .readBoardText _ b | .readLots _ b | .readHolds _ b => bodyFits b
  | .loadNotLoadable _ p => payloadFits p && !(p.head?.any loadableCode)
  | .readBadTable _ p => payloadFits p && !(p.head?.any readableCode)
  | .run _ p | .restart _ p | .stopAccount _ p | .openAccount _ p | .transfer _ p | .settle _ p | .placeHold _ p
  | .releaseHold _ p | .startRing _ p | .stopRing _ p | .hold _ p | .release _ p | .withdraw _ p | .moveLot _ p
  | .setReserve _ p | .setFloor _ p | .cancelRequest _ p | .poolAdjust _ p | .stocktake _ p | .collect _ p
  | .resumePoll _ p | .clearCounters _ p | .showLines _ p | .noticeRead _ p | .noticeClear _ p
  | .timeSet _ p => payloadFits p
  | .relay f => isStation f.dst.toNat && payloadFits f.payload
  | .unknownRequest f => f.dst == 0 && !(isRequestKind f.kind) && payloadFits f.payload
  | .badDestination f => 30 < f.dst.toNat && payloadFits f.payload

end Sys2Proof
end

