-- ==== Sys2Proof/Machine/State.lean ====
section
/-! DEFINITION. Everything the spec gives the part, block by block (spec/00 Table 0-1), as plain data, and its value
after power-on (spec/10 R181). -/

namespace Sys2Proof.Machine

/-! ## Outcomes -/

/-- The part has no fault: every event of the spec has an effect, a counted discard or an answer (INVENTORY, Faults). -/
inductive Fault where
  deriving DecidableEq, Repr

/-- Why a command has no meaning. -/
inductive Refusal where
  /-- Raised by an arm of `exec` whose command has no meaning yet; no arm raises it. Safe: the model stops. -/
  | notModelled (mnemonic : String)
  deriving DecidableEq, Repr

/-! ## Common data -/

/-- A list of entries by index, indices strictly rising; an index not listed is empty. -/
abbrev Table (α : Type) := List (Nat × α)

/-- A time of day and day number as the hall timer held them at an event (R199). -/
structure Stamp where
  tod : Nat
  day : Nat
  deriving DecidableEq, Repr

/-- A running timer: the ticks counted since its start and the ticks it runs for (R199). -/
structure Timer where
  elapsed : Nat
  limit : Nat
  deriving DecidableEq, Repr

/-- One of each of the four rings. -/
structure Four (α : Type) where
  a1 : α
  a2 : α
  a3 : α
  a4 : α
  deriving DecidableEq, Repr

/-! ## Management unit (chapter 10) -/

/-- The operating state (R181). -/
inductive OpState where
  | load | run
  deriving DecidableEq, Repr

/-- The HALL parameters, in the order and units of Table 10-4. -/
structure Hall where
  sellerLevy : Nat
  buyerCommission : Nat
  iceBoats : Nat
  iceBuyers : Nat
  netStep : Nat
  captureTimeout : Nat
  resolveWindow : Nat
  reofferLimit : Nat
  replyTimeout : Nat
  missLimit : Nat
  cyclePeriod : Nat
  breakTime : Nat
  floorSilence : Nat
  gateIdle : Nat
  iceWait : Nat
  reserveLevel : Nat
  lowMark : Nat
  resumeMark : Nat
  boardInterval : Nat
  noticeLevel : Nat
  deriving DecidableEq, Repr

/-! ## Notices (chapter 11) -/

/-- The sixteen latches of Table 11-1, in latch order. -/
inductive Notice where
  | mastershipLost | saturated | quayBreak | floorDown | recordsFull | stationLost | binEmpty | recordsHigh
  | accountStopped | ringStalled | binLow | crateShortfall | gateFault | stationFault | quayErrors | floorErrors
  deriving DecidableEq, Repr

/-- A subject: its kind tells how its number is read (R192). -/
inductive Subject where
  | none
  | station (n : Nat)
  | account (n : Nat)
  | ring (n : Nat)
  | type (n : Nat)
  | chute (n : Nat)
  | record (n : Nat)
  deriving DecidableEq, Repr

/-- The cause kept by latch 16 (R192). -/
inductive Latch16Cause where
  | floorErrors | quayDropped | answerDropped
  deriving DecidableEq, Repr

/-- One notice latch (R192). -/
structure Latch where
  pending : Bool
  count : Nat
  subject : Option Subject
  cause : Option Latch16Cause
  time : Option Stamp
  deriving DecidableEq, Repr

/-! ## Account store (chapter 1) -/

inductive AccountKind where
  | hall | boat | buyer
  deriving DecidableEq, Repr

inductive AccountState where
  | opened | stopped
  deriving DecidableEq, Repr

inductive StopCause where
  | none | office | overlimit
  deriving DecidableEq, Repr

/-- The outcome flags N, Z, V, L (R7). -/
structure Flags where
  n : Bool
  z : Bool
  v : Bool
  l : Bool
  deriving DecidableEq, Repr

/-- The day totals (Table 1-1). -/
structure DayTotals where
  landed : Nat
  sold : Nat
  bought : Nat
  ice : Nat
  levies : Nat
  deriving DecidableEq, Repr

/-- An account (Table 1-1). `crates` lists the crate balances that are not 0, by crate type. -/
structure Account where
  number : Nat
  kind : AccountKind
  state : AccountState
  cause : StopCause
  balance : Int
  limit : Option Nat
  held : Nat
  crates : Table Int
  overdraft : Option Nat
  totals : DayTotals
  flags : Flags
  deriving DecidableEq, Repr

/-- The owner of a hold: a chute, by its quay address, or the office (R10, R184). -/
inductive HoldOwner where
  | chute (station : Nat)
  | office
  deriving DecidableEq, Repr

/-- A hold (R10). -/
structure Hold where
  id : Nat
  account : Nat
  amount : Nat
  owner : HoldOwner
  at_ : Stamp
  deriving DecidableEq, Repr

/-- The account store (R1, R6, R10): `accounts` by slot number. -/
structure AccountStore where
  accounts : Table Account
  residue : Int
  holds : List Hold
  nextHold : Nat
  deriving DecidableEq, Repr

/-! ## Record queue (chapter 7) -/

/-- Causes of an ICE record (Table 5-7), in the order of Table 12-9. -/
inductive IceCause where
  | done | stoppedByChute | cancelled | timeout | stopped | lost | restart
  deriving DecidableEq, Repr

/-- Causes of a CRATE record (Table 12-9). -/
inductive CrateCause where
  | keypad | idle | fault | lost | restart
  deriving DecidableEq, Repr

inductive WithdrawCause where
  | runOut | office
  deriving DecidableEq, Repr

inductive PoolCause where
  | adjust | stocktake
  deriving DecidableEq, Repr

/-- The direction of a gate session (Table 6-4). -/
inductive Direction where
  | into | out
  deriving DecidableEq, Repr

/-- The fields of a record's kind (Table 7-1). -/
inductive RecordBody where
  /-- R38 -/
  | landing (lot boat species ctype count : Nat) (gross : Int) (tare allowance net station : Nat)
  /-- R91 -/
  | sale (lot ring keypad buyer boat k w price value sellerLevy commission deposit : Nat) (flags : Flags)
  /-- R58, R73 -/
  | withdrawn (lot boat crates net : Nat) (cause : WithdrawCause)
  /-- R110 -/
  | ice (chute account ordered granted delivered charge : Nat) (cause : IceCause) (flags : Flags)
  /-- R133 -/
  | crate (gate account ctype : Nat) (dir : Direction) (count amount : Nat) (cause : CrateCause)
  /-- R15 -/
  | transfer (src dst amount : Nat) (srcFlags dstFlags : Flags)
  /-- R16 -/
  | settlement (account : Nat) (balance : Int) (totals : DayTotals)
  /-- R136 -/
  | pool (ctype size store shortfall : Nat) (cause : PoolCause)
  deriving DecidableEq, Repr

/-- A record (R139). -/
structure Record where
  number : Nat
  body : RecordBody
  at_ : Stamp
  deriving DecidableEq, Repr

/-- The record queue (R139): the occupied count is the length of `records`. -/
structure RecordQueue where
  records : List Record
  owed : Nat
  next : Nat
  deriving DecidableEq, Repr

/-! ## Lot store and rings (chapter 3) -/

inductive LotState where
  | queued | onClock
  deriving DecidableEq, Repr

/-- A lot (Table 2-5). -/
structure Lot where
  boat : Nat
  species : Nat
  ring : RingNo
  ctype : Nat
  crates : Nat
  remaining : Nat
  gross : Int
  tare : Nat
  allowance : Nat
  net : Nat
  netRemaining : Nat
  soldNet : Nat
  soldCrates : Nat
  reserve : Option Nat
  offers : Nat
  landed : Stamp
  station : Nat
  state : LotState
  deriving DecidableEq, Repr

/-- The lot store (R37, R47): `lots` by lot number. -/
structure LotStore where
  lots : Table Lot
  reserved : Nat
  next : Nat
  deriving DecidableEq, Repr

/-- A clock profile (R185). -/
structure Profile where
  start : Nat
  floor : Nat
  step : Nat
  interval : Nat
  leadIn : Nat
  resumePause : Nat
  restartRaise : Nat
  afterSale : Nat
  deriving DecidableEq, Repr

/-- A stop held in a slot of an offer (R59). -/
structure StopSlot where
  keypad : Nat
  wanted : Nat
  at_ : Stamp
  deriving DecidableEq, Repr

/-- The last sale of an offer (R63). -/
structure LastSale where
  keypad : Nat
  crates : Nat
  price : Nat
  deriving DecidableEq, Repr

/-- The offer context (Table 3-4). `midway` is the model's own: a resolution has judged slot 1 and not yet slot 2, and
whether slot 1 bought crates (R61). -/
structure Offer where
  lot : Nat
  profile : Profile
  effFloor : Nat
  startPrice : Nat
  price : Nat
  slot1 : Option StopSlot
  slot2 : Option StopSlot
  lastSale : Option LastSale
  midway : Option Bool
  deriving DecidableEq, Repr

/-- The ring states (Table 3-2), in the order of Table 12-9. -/
inductive RingState where
  | idle | waiting | leadIn | descending | resolving | afterSale | held
  deriving DecidableEq, Repr

inductive Stall where
  | none | claims | profile
  deriving DecidableEq, Repr

/-- The ring record (Table 3-3) with its queue (R48) and the timer of its state (R50). `told` is the model's own:
a stalled ring has been told to ask again (R51, R145). -/
structure Ring where
  state : RingState
  offer : Option Offer
  heldOffice : Bool
  heldFloor : Bool
  holdPending : Bool
  stall : Stall
  claims : Nat
  setSeen : Bool
  clearSeen : Bool
  queue : List Nat
  timer : Option Timer
  told : Bool
  deriving DecidableEq, Repr

/-! ## Tables loaded by the office (chapter 10) -/

/-- A SPECIES entry (R185). -/
structure Species where
  code : Nat
  ring : RingNo
  profile : Nat
  m : Nat
  n : Nat
  deriving DecidableEq, Repr

/-- A crate type (Table 6-1). -/
structure CrateType where
  tare : Nat
  deposit : Nat
  pool : Nat
  store : Nat
  shortfall : Nat
  residue : Int
  deriving DecidableEq, Repr

/-- A KEYPADS entry (R167). -/
structure Keypad where
  enabled : Bool
  account : Option Nat
  rings : Four Bool
  deriving DecidableEq, Repr

/-! ## Stations, their records and their contexts (chapters 2, 5, 6, 8) -/

/-- Answer codes (Table 12-8), in the order of their codes. -/
inductive AnswerCode where
  | accepted | busy | notFound | kind | species | crateType | count | crates | full | noDraft | captured
  | overload | underweight | cancelled | timeout | lost | granted | stopped | credit | noDispense | ended
  | opened | direction | noSession | duplicate | late | early | held | closed | unknown | notPermitted
  deriving DecidableEq, Repr

/-- A command waiting in a station's list (Tables 8-3 and 12-3). -/
inductive QuayCommand where
  | answer (code : AnswerCode)
  | answerGranted (kg : Nat)
  | answerOpened (tag : Nat)
  | answerEnded (cause : IceCause) (kg : Nat)
  | result (code : AnswerCode)
  | resultCaptured (lot net : Nat)
  | resultGross (code : AnswerCode) (gross : Int)
  | start (tag kg : Nat)
  | stop (tag : Nat)
  | closed (tag count : Nat) (cause : CrateCause)
  | relay (kind : Byte) (payload : List Byte)
  deriving DecidableEq, Repr

inductive TrackerState where
  | moving | stable | fault
  deriving DecidableEq, Repr

/-- A held reading (section 2.2). -/
structure HeldReading where
  gross : Int
  at_ : Stamp
  deriving DecidableEq, Repr

/-- The stability tracker (section 2.2). -/
structure Tracker where
  state : TrackerState
  counter : Nat
  previous : Option Int
  held : Option HeldReading
  deriving DecidableEq, Repr

/-- A landing draft (Table 2-4) with its capture timer (R40). -/
structure Draft where
  boat : Nat
  species : Nat
  ring : RingNo
  m : Nat
  n : Nat
  ctype : Nat
  tare : Nat
  deposit : Nat
  count : Nat
  netStep : Nat
  deadline : Stamp
  accepted : Stamp
  timer : Timer
  deriving DecidableEq, Repr

/-- The channel state (R30). -/
inductive ChannelState where
  | idle
  | capture (d : Draft)
  | offline
  deriving DecidableEq, Repr

/-- The fields of a WEIGH entry (R183). -/
structure WeighCfg where
  capacity : Nat
  stability : Nat
  band : Nat
  deriving DecidableEq, Repr

structure Channel where
  tracker : Tracker
  state : ChannelState
  deriving DecidableEq, Repr

/-- Why a screw was or will be taken away (R97). -/
inductive SuspendCause where
  | preempt | dry
  deriving DecidableEq, Repr

/-- The pending outcome of a dispense in ENDING (R97). -/
inductive PendingOutcome where
  | suspend (c : SuspendCause)
  | end_
  deriving DecidableEq, Repr

/-- The chute states outside IDLE (Table 5-1). -/
inductive ChuteState where
  | requested | running | ending | suspended
  deriving DecidableEq, Repr

/-- A dispense (Table 5-2) with its chute's state and its wait timer (R111). -/
structure Dispense where
  state : ChuteState
  account : Nat
  ordered : Nat
  granted : Nat
  price : Nat
  hold : Nat
  cls : Nat
  runLevel : Nat
  requested : Stamp
  latchOrder : Nat
  started : Bool
  delivered : Nat
  current : Nat
  suspendCause : Option SuspendCause
  pendingOutcome : Option PendingOutcome
  deadline : Stamp
  wait : Option Timer
  deriving DecidableEq, Repr

/-- The fields of a CHUTE entry (R183). -/
structure ChuteCfg where
  cls : Nat
  runLevel : Nat
  deriving DecidableEq, Repr

/-- A chute context (R96): IDLE exactly when it has no dispense. -/
structure Chute where
  tag : Nat
  job : Option Dispense
  deriving DecidableEq, Repr

/-- The direction of a gate (R183). -/
inductive GateDirection where
  | into | out | both
  deriving DecidableEq, Repr

/-- A gate session (Table 6-4) with its idle timer (R131). -/
structure Session where
  account : Nat
  ctype : Nat
  dir : Direction
  count : Nat
  clamped : Bool
  opened : Stamp
  deadline : Stamp
  idle : Timer
  deriving DecidableEq, Repr

/-- The close a gate made last, for a lost CLOSED (R134). -/
structure LastClose where
  count : Nat
  cause : CrateCause
  deriving DecidableEq, Repr

/-- The count report a gate made last, for READ of STATIONS (R129, R134). -/
structure GateReport where
  tag : Nat
  barrierOpen : Bool
  count : Nat
  deriving DecidableEq, Repr

/-- A gate context (R125): IDLE exactly when it has no session. -/
structure Gate where
  tag : Nat
  session : Option Session
  lastClose : Option LastClose
  report : Option GateReport
  deriving DecidableEq, Repr

/-- A station's kind with the fields of the kind and the context its owner keeps for the address (R24, R96, R125). -/
inductive Device where
  | weigh (cfg : WeighCfg) (ch : Channel)
  | chute (cfg : ChuteCfg) (c : Chute)
  | gate (dir : GateDirection) (g : Gate)
  | icePlant
  deriving DecidableEq, Repr

inductive Liveness where
  | online | offline
  deriving DecidableEq, Repr

/-- A STATIONS entry with the poller's record of the station (Table 8-1) and its owner's context.
`age` counts the ticks since the station was last heard (R199). `carried` is the model's own: the front command of the
list is the one that the outstanding poll carries (R157). -/
structure Station where
  enabled : Bool
  device : Device
  live : Liveness
  misses : Nat
  commands : List QuayCommand
  lastHeard : Option Stamp
  age : Nat
  carried : Bool
  deriving DecidableEq, Repr

/-! ## Ice arbiter and ice plant monitor (chapter 5) -/

/-- The screw state (Table 5-4); a chute is named by its quay address. -/
inductive Screw where
  | idle
  | running (station : Nat)
  | switching (station : Nat)
  | dry
  deriving DecidableEq, Repr

/-- The ice arbiter (R101) and the ice plant monitor (section 5.5). `reserve` is the reserve level read at the last
bin reading (R117). -/
structure IcePlant where
  screw : Screw
  officeFloor : Nat
  latch : List Nat
  nextLatch : Nat
  level : Option Nat
  emptyFlag : Option Bool
  low : Bool
  reserve : Nat
  deriving DecidableEq, Repr

/-! ## Line ports and quay poller (chapter 8) -/

/-- A line port (R149 to R152). -/
structure Port where
  rx : List Frame
  stage : Option Frame
  onLine : Option Frame
  cntF : Nat
  cntC : Nat
  cntL : Nat
  cntO : Nat
  cntB : Nat
  inBreak : Bool
  deriving DecidableEq, Repr

/-- The floor condition (R153). -/
inductive FloorCond where
  | up | silent | broken
  deriving DecidableEq, Repr

/-- The floor port's own condition and silence timer (R153). -/
structure FloorLine where
  cond : FloorCond
  silence : Option Timer
  deriving DecidableEq, Repr

/-- The state BROKEN was entered from (R165). -/
inductive LeftState where
  | polling | listen
  deriving DecidableEq, Repr

/-- The poller's states (section 8.4). -/
inductive PollerState where
  | off
  | polling
  | listen
  | broken (left : LeftState)
  deriving DecidableEq, Repr

/-- Where a poll stands: due while the stage is full, waiting in the stage, on the line, or awaiting its reply. -/
inductive PollPhase where
  | due
  | staged
  | onLine
  | awaiting (wait : Timer)
  deriving DecidableEq, Repr

/-- The poll in progress: the station polled, or, while the poll is due, the address polled last in the cycle, 0 where
none has been (R156). -/
structure Poll where
  station : Nat
  phase : PollPhase
  deriving DecidableEq, Repr

/-- The quay poller (R155 to R166). `cycle` is the cycle in progress, set in a roll-call cycle. -/
structure Poller where
  state : PollerState
  cycleTimer : Option Timer
  cycle : Option Bool
  startDue : Bool
  poll : Option Poll
  breakTimer : Option Timer
  deriving DecidableEq, Repr

/-! ## Board composer (chapter 9) -/

/-- The content of a board slot (Table 9-1). -/
structure BoardContent where
  state : RingState
  held : Bool
  lot : Option Nat
  boat : Option Nat
  species : Option Nat
  crates : Option Nat
  net : Option Nat
  price : Option Nat
  lastSale : Option LastSale
  deriving DecidableEq, Repr

inductive Readiness where
  | none | paced | ready
  deriving DecidableEq, Repr

/-- A board slot (Table 9-1). -/
structure BoardSlot where
  content : Option BoardContent
  readiness : Readiness
  pace : Option Timer
  deriving DecidableEq, Repr

/-- A keypad answer (R169). -/
structure KeypadAnswer where
  keypad : Nat
  ring : Nat
  code : AnswerCode
  lot : Option Nat
  crates : Option Nat
  price : Option Nat
  arrival : Option Stamp
  deriving DecidableEq, Repr

/-- The board composer (R169, R172, R175). `text` lists the lines that are not empty; `showing` is the pending set in
ascending order. -/
structure Boards where
  slots : Four BoardSlot
  answers : List KeypadAnswer
  text : Table (List Byte)
  showing : List Nat
  deriving DecidableEq, Repr

/-! ## The part -/

/-- The whole state of the part, with the queue of waiting commands and the counter of free choices. -/
structure State where
  pending : List Instr
  choices : Nat
  clock : Stamp
  op : OpState
  hall : Option Hall
  noticeLevel : Nat
  latches : Table Latch
  bank : AccountStore
  queue : RecordQueue
  lotStore : LotStore
  rings : Four Ring
  species : Table Species
  profiles : Table Profile
  crateTypes : Table CrateType
  keypads : Table Keypad
  stations : Table Station
  ice : IcePlant
  poller : Poller
  quay : Port
  floor : Port
  office : Port
  floorLine : FloorLine
  boards : Boards
  deriving DecidableEq, Repr

/-! ## Power-on -/

/-- A ring at power-on (R50). -/
def Ring.reset : Ring :=
  { state := .idle, offer := none, heldOffice := false, heldFloor := false, holdPending := false, stall := .none,
    claims := 0, setSeen := false, clearSeen := false, queue := [], timer := none, told := false }

/-- A port at power-on (R149, R151, R152, R154). -/
def Port.reset : Port :=
  { rx := [], stage := none, onLine := none, cntF := 0, cntC := 0, cntL := 0, cntO := 0, cntB := 0, inBreak := false }

/-- The hall account at power-on (R2). -/
def Account.hallReset : Account :=
  { number := 0, kind := .hall, state := .opened, cause := .none, balance := 0, limit := none, held := 0, crates := [],
    overdraft := none, totals := { landed := 0, sold := 0, bought := 0, ice := 0, levies := 0 },
    flags := { n := false, z := true, v := false, l := false } }

/-- A board slot at power-on (R178). -/
def BoardSlot.reset : BoardSlot := { content := none, readiness := .none, pace := none }

/-- The poller at power-on (R155). -/
def Poller.reset : Poller :=
  { state := .off, cycleTimer := none, cycle := none, startDue := false, poll := none, breakTimer := none }

/-- The ice plant at power-on (R102, R114, R118). -/
def IcePlant.reset : IcePlant :=
  { screw := .dry, officeFloor := 0, latch := [], nextLatch := 0, level := none, emptyFlag := none, low := false,
    reserve := 0 }

/-- The part right after power-on (R181 and the power-on sentences of R2, R23, R46, R50, R77, R118, R119, R148, R149,
R151, R154, R155, R167, R169, R175, R178, R192, R194, R197). -/
def State.reset : State :=
  { pending := [], choices := 0, clock := { tod := 0, day := 0 }, op := .load, hall := none, noticeLevel := 0,
    latches := [], bank := { accounts := [(0, Account.hallReset)], residue := 0, holds := [], nextHold := 1 },
    queue := { records := [], owed := 0, next := 1 }, lotStore := { lots := [], reserved := 0, next := 1 },
    rings := { a1 := Ring.reset, a2 := Ring.reset, a3 := Ring.reset, a4 := Ring.reset },
    species := [], profiles := [], crateTypes := [], keypads := [], stations := [], ice := IcePlant.reset,
    poller := Poller.reset, quay := Port.reset, floor := Port.reset, office := Port.reset,
    floorLine := { cond := .up, silence := none },
    boards := { slots := { a1 := BoardSlot.reset, a2 := BoardSlot.reset, a3 := BoardSlot.reset, a4 := BoardSlot.reset },
                answers := [], text := [], showing := [] } }

end Sys2Proof.Machine
end

