-- ==== Sys2Proof/Machine/Ops.lean ====
section
/-! DEFINITION. The named operations over the part's common data: tables, the four rings, stamps and timers, free
choices, notice latches (chapter 11) and the ports' transmit and receive stages (chapter 8). -/

namespace Sys2Proof

/-- The ring's number, 1 to 4. -/
def RingNo.num : RingNo → Nat
  | .r1 => 1 | .r2 => 2 | .r3 => 3 | .r4 => 4

/-- The ring of a number 1 to 4. -/
def RingNo.ofNum : Nat → Option RingNo
  | 1 => some .r1 | 2 => some .r2 | 3 => some .r3 | 4 => some .r4 | _ => none

end Sys2Proof

namespace Sys2Proof.Machine

/-- What a meaning answers. -/
abbrev Result := Host.Outcome State Fault Refusal

/-! ## Tables -/

/-- The entry at an index. -/
def Table.find {α : Type} : Table α → Nat → Option α
  | [], _ => none
  | (k, v) :: t, i => if k = i then some v else Table.find t i

/-- Writes the entry at an index, keeping the indices rising. -/
def Table.set {α : Type} : Table α → Nat → α → Table α
  | [], i, v => [(i, v)]
  | (k, w) :: t, i, v =>
    if i < k then (i, v) :: (k, w) :: t else if i = k then (i, v) :: t else (k, w) :: Table.set t i v

/-- Makes an index empty. -/
def Table.erase {α : Type} : Table α → Nat → Table α
  | [], _ => []
  | (k, w) :: t, i => if k = i then t else (k, w) :: Table.erase t i

/-- Changes the entry at an index, if there is one. -/
def Table.modify {α : Type} : Table α → Nat → (α → α) → Table α
  | [], _, _ => []
  | (k, w) :: t, i, f => if k = i then (k, f w) :: t else (k, w) :: Table.modify t i f

/-- The canonical form of a table: indices strictly rising. -/
abbrev Table.Sorted {α : Type} (t : Table α) : Prop := List.Pairwise (fun x y => x.1 < y.1) t

/-! ## The four rings -/

/-- The four rings in order. -/
def allRings : List RingNo := [.r1, .r2, .r3, .r4]

def Four.get {α : Type} (x : Four α) : RingNo → α
  | .r1 => x.a1 | .r2 => x.a2 | .r3 => x.a3 | .r4 => x.a4

def Four.set {α : Type} (x : Four α) (r : RingNo) (v : α) : Four α :=
  match r with
  | .r1 => { x with a1 := v } | .r2 => { x with a2 := v } | .r3 => { x with a3 := v } | .r4 => { x with a4 := v }

def Four.map {α β : Type} (f : α → β) (x : Four α) : Four β :=
  { a1 := f x.a1, a2 := f x.a2, a3 := f x.a3, a4 := f x.a4 }

def State.ring (s : State) (r : RingNo) : Ring := s.rings.get r
def State.setRing (s : State) (r : RingNo) (x : Ring) : State := { s with rings := s.rings.set r x }
def State.slot (s : State) (r : RingNo) : BoardSlot := s.boards.slots.get r
def State.setSlot (s : State) (r : RingNo) (x : BoardSlot) : State :=
  { s with boards := { s.boards with slots := s.boards.slots.set r x } }

/-! ## Hall time (R197, R199) -/

/-- Milliseconds in a day. -/
def msPerDay : Nat := 86400000

/-- One tick of the hall timer (R197). -/
def Stamp.tick (t : Stamp) : Stamp :=
  if t.tod = 86399999 then { tod := 0, day := if t.day = 65535 then 0 else t.day + 1 }
  else { t with tod := t.tod + 1 }

/-- The stamp a number of milliseconds later: a deadline kept for the office (R199). -/
def Stamp.later (t : Stamp) (ms : Nat) : Stamp :=
  { tod := (t.tod + ms) % msPerDay, day := (t.day + (t.tod + ms) / msPerDay) % 65536 }

/-- The order of two stamps as they read (R199). -/
def Stamp.before (a b : Stamp) : Bool := a.day < b.day || (a.day == b.day && a.tod < b.tod)

/-! ## Timers (R199) -/

def Timer.start (limit : Nat) : Timer := { elapsed := 0, limit := limit }
def Timer.tick (t : Timer) : Timer := { t with elapsed := t.elapsed + 1 }
/-- The timer has run out: its expiry, or its wrap, may be taken. -/
def Timer.due (t : Timer) : Bool := t.limit ≤ t.elapsed
/-- A wrap to 0, running on for a period. Ticks counted since the wrap came due stay counted (log 9). -/
def Timer.wrap (t : Timer) (period : Nat) : Timer := { elapsed := t.elapsed - t.limit, limit := period }
/-- A timer that runs and has run out. -/
def timerDue (t : Option Timer) : Bool := t.any Timer.due

/-! ## HALL parameters (R187) -/

/-- The values read where HALL is absent; no block that reads a parameter works before HALL is loaded (log 18). -/
def Hall.absent : Hall :=
  { sellerLevy := 0, buyerCommission := 0, iceBoats := 0, iceBuyers := 0, netStep := 1, captureTimeout := 0,
    resolveWindow := 0, reofferLimit := 0, replyTimeout := 0, missLimit := 0, cyclePeriod := 0, breakTime := 0,
    floorSilence := 0, gateIdle := 0, iceWait := 0, reserveLevel := 0, lowMark := 0, resumeMark := 0,
    boardInterval := 0, noticeLevel := 0 }

/-- The HALL parameters as they stand. -/
def State.par (s : State) : Hall := s.hall.getD Hall.absent

/-! ## Free choices (log 5) -/

/-- A choice among `n`, taken from the free value of this point; with one possibility there is nothing to choose. -/
def State.choose (s : State) (n : Nat) : Nat × State :=
  if n ≤ 1 then (0, s) else (Config.freeChoice s.choices % n, { s with choices := s.choices + 1 })

/-- The list in an order drawn from free choices: which of two blocks acts first inside a step is not given.
`n` bounds the draws. -/
def State.order {α : Type} : Nat → List α → State → List α × State
  | 0, xs, s => (xs, s)
  | n + 1, xs, s =>
    let (k, s) := s.choose xs.length
    match xs[k]? with
    | none => (xs, s)
    | some x =>
      let (rest, s) := State.order n (xs.eraseIdx k) s
      (x :: rest, s)

/-! ## Notice latches (R192 to R194) -/

/-- A clear latch (R192). -/
def Latch.clear : Latch := { pending := false, count := 0, subject := none, cause := none, time := none }

/-- The latch number (Table 11-1). -/
def Notice.num : Notice → Nat
  | .mastershipLost => 1 | .saturated => 2 | .quayBreak => 3 | .floorDown => 4 | .recordsFull => 5
  | .stationLost => 6 | .binEmpty => 7 | .recordsHigh => 8 | .accountStopped => 9 | .ringStalled => 10
  | .binLow => 11 | .crateShortfall => 12 | .gateFault => 13 | .stationFault => 14 | .quayErrors => 15
  | .floorErrors => 16

/-- The priority of a latch number (Table 11-1). -/
def latchPriority : Nat → Nat
  | 1 => 7 | 2 => 7 | 3 => 6 | 4 => 6 | 5 => 6 | 6 => 5 | 7 => 5 | 8 => 4 | 9 => 4 | 10 => 4 | 11 => 3 | 12 => 3
  | 13 => 3 | 14 => 3 | 15 => 2 | 16 => 2 | _ => 0

/-- The latch of a number as it stands; a latch not listed is clear. -/
def State.latchAt (s : State) (n : Nat) : Latch := (s.latches.find n).getD Latch.clear

/-- One occurrence brought into a latch (R192). -/
def Latch.occur (l : Latch) (now : Stamp) (subj : Subject) (cause : Option Latch16Cause) : Latch :=
  if l.pending then { l with count := min 255 (l.count + 1) }
  else { pending := true, count := min 255 (l.count + 1), subject := some subj, cause := cause, time := some now }

/-- An occurrence of a notice with its subject and, for latch 16, its cause (R192). -/
def State.latchCause (s : State) (n : Notice) (subj : Subject) (cause : Option Latch16Cause) : State :=
  { s with latches := s.latches.set n.num ((s.latchAt n.num).occur s.clock subj cause) }

/-- An occurrence of a notice with its subject (R192). -/
def State.latch (s : State) (n : Notice) (subj : Subject) : State := s.latchCause n subj none

/-- A latch is reportable while pending with a priority above the notice level (R194). -/
def State.reportable (s : State) (n : Nat) : Bool := (s.latchAt n).pending && s.noticeLevel < latchPriority n

/-- The numbers of the sixteen latches. -/
def latchNumbers : List Nat := [1, 2, 3, 4, 5, 6, 7, 8, 9, 10, 11, 12, 13, 14, 15, 16]

/-- The reportable latches, in latch order (R194). -/
def State.reportables (s : State) : List Nat := latchNumbers.filter s.reportable

/-- The highest priority among the reportable latches, or 0 (R194). -/
def State.topPriority (s : State) : Nat := (s.reportables.map latchPriority).foldl max 0

/-! ## Ports: stages, counters (R149 to R152) -/

def State.port (s : State) : LineId → Port
  | .quay => s.quay | .floor => s.floor | .office => s.office

def State.setPort (s : State) (l : LineId) (p : Port) : State :=
  match l with
  | .quay => { s with quay := p } | .floor => { s with floor := p } | .office => { s with office := p }

/-- A counter raised by one, saturating at 65,535 (R150). -/
def bump (n : Nat) : Nat := if n < 65535 then n + 1 else 65535

/-- A frame given to the transmitter: it goes on an idle line at once, and waits in the stage otherwise (R151, log 29).
The owner calls this only when the stage is empty. -/
def Port.place (p : Port) (f : Frame) : Port :=
  match p.onLine with
  | none => { p with onLine := some f }
  | some _ => { p with stage := some f }

/-- The transmitter finishes the frame on the line: the waiting frame goes onto the line, the stage becomes empty
(R151). -/
def Port.sent (p : Port) : Port := { p with onLine := p.stage, stage := none }

/-- A frame that passed is placed in the receive stage (R149). -/
def Port.receive (p : Port) (f : Frame) : Port := { p with rx := p.rx ++ [f] }

/-- Both entries of the receive stage are occupied (R150, condition O). -/
def Port.full (p : Port) : Bool := 2 ≤ p.rx.length

/-- The conditions of R150 found on a frame. -/
structure Conditions where
  f : Bool
  c : Bool
  l : Bool
  o : Bool
  deriving DecidableEq, Repr

def Conditions.any (c : Conditions) : Bool := c.f || c.c || c.l || c.o

/-- Each condition present raises its own counter (R150). -/
def Port.count (p : Port) (c : Conditions) : Port :=
  { p with
    cntF := if c.f then bump p.cntF else p.cntF
    cntC := if c.c then bump p.cntC else p.cntC
    cntL := if c.l then bump p.cntL else p.cntL
    cntO := if c.o then bump p.cntO else p.cntO }

/-! ## Stations -/

def State.station (s : State) (a : Nat) : Option Station := s.stations.find a
def State.modStation (s : State) (a : Nat) (f : Station → Station) : State :=
  { s with stations := s.stations.modify a f }

/-- Changes a station's owner context, keeping the poller's record. -/
def Station.withDevice (st : Station) (d : Device) : Station := { st with device := d }

def Device.isWeigh : Device → Bool
  | .weigh _ _ => true | _ => false
def Device.isChute : Device → Bool
  | .chute _ _ => true | _ => false
def Device.isGate : Device → Bool
  | .gate _ _ => true | _ => false
def Device.isIcePlant : Device → Bool
  | .icePlant => true | _ => false

/-- The rank of an address among the stations of a kind, in ascending order: the channel, chute or gate number
(R24, R96, R125). -/
def State.rank (s : State) (p : Device → Bool) (a : Nat) : Nat :=
  (s.stations.filter (fun x => x.1 ≤ a && p x.2.device)).length

def State.chuteNo (s : State) (a : Nat) : Nat := s.rank Device.isChute a
def State.gateNo (s : State) (a : Nat) : Nat := s.rank Device.isGate a
def State.channelNo (s : State) (a : Nat) : Nat := s.rank Device.isWeigh a

/-- The quay address of the ICEPLANT station, if there is one. -/
def State.plantAddr (s : State) : Option Nat := (s.stations.find? (fun x => x.2.device.isIcePlant)).map (·.1)

/-- The addresses of the stations whose contexts satisfy a condition, ascending. -/
def State.addrsWhere (s : State) (p : Station → Bool) : List Nat :=
  (s.stations.filter (fun x => p x.2)).map (·.1)

/-- The channel context of a station address. -/
def State.weighAt (s : State) (a : Nat) : Option (WeighCfg × Channel) :=
  match s.station a with
  | some st => match st.device with
    | .weigh cfg ch => some (cfg, ch)
    | _ => none
  | none => none

def State.chuteAt (s : State) (a : Nat) : Option (ChuteCfg × Chute) :=
  match s.station a with
  | some st => match st.device with
    | .chute cfg c => some (cfg, c)
    | _ => none
  | none => none

def State.gateAt (s : State) (a : Nat) : Option (GateDirection × Gate) :=
  match s.station a with
  | some st => match st.device with
    | .gate d g => some (d, g)
    | _ => none
  | none => none

/-- The dispense in flight at a chute address. -/
def State.jobAt (s : State) (a : Nat) : Option Dispense := (s.chuteAt a).bind (·.2.job)

def Device.setChannel (d : Device) (ch : Channel) : Device :=
  match d with
  | .weigh cfg _ => .weigh cfg ch
  | d => d
def Device.setChute (d : Device) (c : Chute) : Device :=
  match d with
  | .chute cfg _ => .chute cfg c
  | d => d
def Device.setGate (d : Device) (g : Gate) : Device :=
  match d with
  | .gate dir _ => .gate dir g
  | d => d

def State.setChannel (s : State) (a : Nat) (ch : Channel) : State :=
  s.modStation a (fun st => st.withDevice (st.device.setChannel ch))
def State.setChute (s : State) (a : Nat) (c : Chute) : State :=
  s.modStation a (fun st => st.withDevice (st.device.setChute c))
def State.setGate (s : State) (a : Nat) (g : Gate) : State :=
  s.modStation a (fun st => st.withDevice (st.device.setGate g))

/-! ## Command lists (R159) -/

def QuayCommand.isStop : QuayCommand → Bool
  | .stop _ => true | _ => false
def QuayCommand.isStart : QuayCommand → Bool
  | .start _ _ => true | _ => false
def QuayCommand.isOpened : QuayCommand → Bool
  | .answerOpened _ => true | _ => false
def QuayCommand.isClosed : QuayCommand → Bool
  | .closed _ _ _ => true | _ => false

/-- A command placed in a station's list of waiting commands: the list after, and whether a command was dropped from
it or not taken (R159). `carried` tells whether the front command is still the one the outstanding poll carries. -/
def Station.place (st : Station) (c : QuayCommand) : Station × Bool :=
  match st.commands with
  | [] => ({ st with commands := [c] }, false)
  | [x] => ({ st with commands := [x, c] }, false)
  | x :: y :: rest =>
    if !x.isStop then ({ st with commands := (y :: rest) ++ [c], carried := false }, true)
    else if !y.isStop then ({ st with commands := (x :: rest) ++ [c] }, true)
    else if !c.isStop then (st, true)
    else ({ st with commands := (y :: rest) ++ [c], carried := false }, true)

/-- A command an owner asks to place: taken for an enabled station, OUTBOUND_DROPPED latched when one is displaced;
discarded without notice for a disabled station (R155, R159). -/
def State.placeCommand (s : State) (a : Nat) (c : QuayCommand) : State :=
  match s.station a with
  | none => s
  | some st =>
    if st.enabled then
      let s' := s.modStation a (fun x => (x.place c).1)
      if (st.place c).2 then s'.latchCause .floorErrors (.station a) (some .quayDropped) else s'
    else s

/-- A station's waiting commands hold one of a kind. -/
def State.waits (s : State) (a : Nat) (p : QuayCommand → Bool) : Bool :=
  match s.station a with
  | none => false
  | some st => st.commands.any p

end Sys2Proof.Machine
end

