-- ==== Sys2Proof/Machine/Operands.lean ====
section
/-! DEFINITION. How the operands of a command are read from its bytes: the fields of a payload (spec/12), the quay
replies by kind of station (Table 12-3, R201) and the request payloads (Table 12-6). -/

namespace Sys2Proof.Machine

/-! ## Fields: unsigned, high byte first; signed in two's complement (spec/12) -/

def beNat (bs : List Byte) : Nat := bs.foldl (fun x b => x * 256 + b.toNat) 0

/-- The unsigned field of `w` bytes at an offset. -/
def fieldAt (p : List Byte) (off w : Nat) : Nat := beNat ((p.drop off).take w)

/-- A signed number of `w` bytes. -/
def signedOf (w x : Nat) : Int := if 2 * x < 256 ^ w then (x : Int) else (x : Int) - (256 ^ w : Nat)

/-- The signed field of `w` bytes at an offset. -/
def signedAt (p : List Byte) (off w : Nat) : Int := signedOf w (fieldAt p off w)

/-- A flag byte's flag. -/
def flagAt (p : List Byte) (off bit : Nat) : Bool := (fieldAt p off 1).testBit bit

/-! ## Quay replies (Table 12-3, R201) -/

/-- Run status of a chute report. -/
inductive RunStatus where
  | none | active | ended
  deriving DecidableEq, Repr

inductive WeighItem where
  | none
  | draft (account species ctype count : Nat)
  | cancel
  deriving DecidableEq, Repr

structure WeighReply where
  gross : Int
  motion : Bool
  overload : Bool
  item : WeighItem
  deriving DecidableEq, Repr

structure ChuteReply where
  tag : Nat
  status : Option RunStatus
  kg : Nat
  stopButton : Bool
  request : Option (Nat × Nat)
  deriving DecidableEq, Repr

inductive GateItem where
  | none
  | open_ (account ctype direction : Nat)
  | close
  deriving DecidableEq, Repr

structure GateReply where
  tag : Nat
  barrierOpen : Bool
  count : Nat
  sensor : Bool
  item : GateItem
  deriving DecidableEq, Repr

structure PlantReply where
  level : Nat
  empty : Bool
  deriving DecidableEq, Repr

/-- A WEIGH reply, if its length fits its item code; a code outside the list brings no item (R201, log 11). -/
def readWeigh (p : List Byte) : Option WeighReply :=
  let base (item : WeighItem) : WeighReply :=
    { gross := signedAt p 0 3, motion := flagAt p 3 0, overload := flagAt p 3 1, item := item }
  if p.length = 11 && fieldAt p 4 1 == 1 then
    some (base (.draft (fieldAt p 5 2) (fieldAt p 7 2) (fieldAt p 9 1) (fieldAt p 10 1)))
  else if p.length = 5 && fieldAt p 4 1 != 1 then
    some (base (if fieldAt p 4 1 = 2 then .cancel else .none))
  else none

/-- The run status of a code; a code outside the list brings no run report (R201). -/
def runStatusOf : Nat → Option RunStatus
  | 0 => some .none
  | 1 => some .active
  | 2 => some .ended
  | _ => none

/-- A CHUTE reply, if its length fits its item code. Under a code outside the list six bytes, those of a reply without
an item, fit, and it brings no item (R98, R201): which length such a code asks for is the model's (log 11). -/
def readChute (p : List Byte) : Option ChuteReply :=
  let base (r : Option (Nat × Nat)) : ChuteReply :=
    { tag := fieldAt p 0 1, status := runStatusOf (fieldAt p 1 1), kg := fieldAt p 2 2, stopButton := flagAt p 4 0,
      request := r }
  if p.length = 10 && fieldAt p 5 1 == 1 then some (base (some (fieldAt p 6 2, fieldAt p 8 2)))
  else if p.length = 6 && fieldAt p 5 1 != 1 then some (base none)
  else none

/-- A GATE reply, if its length fits its item code; a code outside the list brings no item (R201, log 11), and a barrier
code outside the list is taken as SHUT (R201). -/
def readGate (p : List Byte) : Option GateReply :=
  let base (item : GateItem) : GateReply :=
    { tag := fieldAt p 0 1, barrierOpen := fieldAt p 1 1 == 1, count := fieldAt p 2 2, sensor := flagAt p 4 0,
      item := item }
  if p.length = 10 && fieldAt p 5 1 == 1 then some (base (.open_ (fieldAt p 6 2) (fieldAt p 8 1) (fieldAt p 9 1)))
  else if p.length = 6 && fieldAt p 5 1 != 1 then some (base (if fieldAt p 5 1 = 2 then .close else .none))
  else none

/-- An ICEPLANT reply. -/
def readPlant (p : List Byte) : Option PlantReply :=
  if p.length = 2 then some { level := fieldAt p 0 1, empty := flagAt p 1 0 } else none

/-- A reply's length fits the layout of its station's kind and item code (R201). -/
def Device.fits (d : Device) (p : List Byte) : Bool :=
  match d with
  | .weigh _ _ => (readWeigh p).isSome
  | .chute _ _ => (readChute p).isSome
  | .gate _ _ => (readGate p).isSome
  | .icePlant => (readPlant p).isSome

/-! ## Request payloads (Table 12-6): absent where the length does not fit (R202) -/

/-- A payload of exactly `n` bytes. -/
def sized (p : List Byte) (n : Nat) : Option (List Byte) := if p.length = n then some p else none

/-- No payload. -/
def readNothing (p : List Byte) : Option Unit := (sized p 0).map (fun _ => ())

/-- One number of `w` bytes. -/
def readOne (w : Nat) (p : List Byte) : Option Nat := (sized p w).map (fun p => fieldAt p 0 w)

/-- Two numbers, of `v` and `w` bytes. -/
def readTwo (v w : Nat) (p : List Byte) : Option (Nat × Nat) :=
  (sized p (v + w)).map (fun p => (fieldAt p 0 v, fieldAt p v w))

/-- TRANSFER: from (2), to (2), amount (4). -/
def readTransfer (p : List Byte) : Option (Nat × Nat × Nat) :=
  (sized p 8).map (fun p => (fieldAt p 0 2, fieldAt p 2 2, fieldAt p 4 4))

/-- POOL ADJUST: type (1), n, signed (4). -/
def readAdjust (p : List Byte) : Option (Nat × Int) := (sized p 5).map (fun p => (fieldAt p 0 1, signedAt p 1 4))

/-- The entries of a LOAD body cut into pieces of `n` bytes; absent where there is none or the last is not whole
(R182). `fuel` bounds the pieces. -/
def cut (n : Nat) : Nat → List Byte → Option (List (List Byte))
  | 0, _ => none
  | fuel + 1, p =>
    if p.length < n then none
    else if p.length = n then some [p]
    else (cut n fuel (p.drop n)).map (p.take n :: ·)

/-- The start index and the entries of a LOAD body (Table 12-6): absent where the length does not fit (R182, R202). -/
def readLoad (n : Nat) (body : List Byte) : Option (Nat × List (List Byte)) :=
  if body.length < 2 then none else (cut n 120 (body.drop 2)).map (fun es => (fieldAt body 0 2, es))

/-- The entries of a BOARD TEXT body: a length byte and that many characters each (Table 12-7). -/
def cutText : Nat → List Byte → Option (List (List Byte))
  | 0, _ => none
  | _ + 1, [] => none
  | fuel + 1, len :: p =>
    let n := len.toNat
    if p.length < n then none
    else if p.length = n then some [p]
    else (cutText fuel (p.drop n)).map (p.take n :: ·)

def readLoadText (body : List Byte) : Option (Nat × List (List Byte)) :=
  if body.length < 2 then none else (cutText 120 (body.drop 2)).map (fun es => (fieldAt body 0 2, es))

/-- READ: index (2), count (1), after the table code. -/
def readRead (body : List Byte) : Option (Nat × Nat) := readTwo 2 1 body

end Sys2Proof.Machine
end

