-- ==== Sys2Proof/Machine/Flags.lean ====
section
/-! DEFINITION. The outcome flags of an account (R7) and the available credit they are judged from (R3). -/

namespace Sys2Proof.Machine

/-- The available credit of a boat or buyer account: balance less held plus credit limit (R3). The hall account has
none (R2). -/
def Account.available (a : Account) : Int := a.balance - (a.held : Int) + ((a.limit.getD 0 : Nat) : Int)

/-- The account is a boat or buyer account. -/
def Account.isClient (a : Account) : Bool :=
  match a.kind with
  | .hall => false
  | .boat => true
  | .buyer => true

/-- The available credit of a boat or buyer account is below zero (R7, flag L). -/
def Account.short (a : Account) : Bool := a.isClient && decide (a.available < 0)

/-- The outcome flags after a posting, from the account after it and whether the posting saturated it (R7). -/
def Account.flagsAfter (a : Account) (saturated : Bool) : Flags :=
  { n := decide (a.balance < 0), z := decide (a.balance = 0), v := saturated, l := a.short }

/-- The flag byte of a record or response: N bit 0, Z bit 1, V bit 2, L bit 3 (spec/12, 12.6). -/
def Flags.byte (f : Flags) : Nat := f.n.toNat + 2 * f.z.toNat + 4 * f.v.toNat + 8 * f.l.toNat

end Sys2Proof.Machine
end

