-- ==== Sys2Proof/Machine/Accounts.lean ====
section
/-! DEFINITION. The account store: accounts by number, postings with saturation, stops, holds and crate balances
(chapter 1, R120). -/

namespace Sys2Proof.Machine

/-! ## Accounts by number (R1) -/

/-- The account of a number; a number stands in at most one slot (R1). -/
def Table.account : Table Account → Nat → Option Account
  | [], _ => none
  | (_, a) :: t, n => if a.number = n then some a else Table.account t n

/-- Changes the account of a number. -/
def Table.modAccount : Table Account → Nat → (Account → Account) → Table Account
  | [], _, _ => []
  | (k, a) :: t, n, f => if a.number = n then (k, f a) :: t else (k, a) :: Table.modAccount t n f

def State.account (s : State) (n : Nat) : Option Account := s.bank.accounts.account n

def State.modAccount (s : State) (n : Nat) (f : Account → Account) : State :=
  { s with bank := { s.bank with accounts := s.bank.accounts.modAccount n f } }

def State.addResidue (s : State) (x : Int) : State := { s with bank := { s.bank with residue := s.bank.residue + x } }

/-! ## Postings (R5, R6, R7) -/

/-- The bound of a balance and of a crate balance (Table 1-1). -/
def balanceBound : Int := 2000000000

/-- A figure held within the bounds. -/
def clampBalance (x : Int) : Int := max (-balanceBound) (min balanceBound x)

/-- A balance changed by an amount and held at its bounds (R6). -/
def Account.shift (a : Account) (delta : Int) : Account := { a with balance := clampBalance (a.balance + delta) }

/-- The part of a change that the bounds do not take (R6). -/
def unapplied (x delta : Int) : Int := x + delta - clampBalance (x + delta)

/-- One side of a posting: the balance changed, the unapplied part in the residue (R6). -/
def State.postSide (s : State) (n : Nat) (delta : Int) : State :=
  match s.account n with
  | none => s
  | some a => (s.modAccount n (fun a => a.shift delta)).addResidue (unapplied a.balance delta)

/-- One side of a posting saturates the account (R6). -/
def State.sideSaturates (s : State) (n : Nat) (delta : Int) : Bool :=
  match s.account n with
  | none => false
  | some a => unapplied a.balance delta != 0

/-- Sets an account's outcome flags (R7). -/
def State.setFlags (s : State) (n : Nat) (saturated : Bool) : State :=
  s.modAccount n (fun a => { a with flags := a.flagsAfter saturated })

/-- Latches SATURATED for the sides that saturated; which side is judged first is not given (R192). -/
def State.latchSaturated (s : State) (debit : Nat) (dSat : Bool) (credit : Nat) (cSat : Bool) : State :=
  if dSat && cSat then
    let (k, s) := s.choose 2
    if k = 0 then (s.latch .saturated (.account debit)).latch .saturated (.account credit)
    else (s.latch .saturated (.account credit)).latch .saturated (.account debit)
  else if dSat then s.latch .saturated (.account debit)
  else if cSat then s.latch .saturated (.account credit)
  else s

/-- Which sides of a move saturate: the debited and the credited one, each judged on its own (R6). -/
def State.moveSats (s : State) (debit credit amount : Nat) : Bool × Bool :=
  (s.sideSaturates debit (-(amount : Int)), (s.postSide debit (-(amount : Int))).sideSaturates credit (amount : Int))

/-- Moves an amount between two accounts, each side saturated on its own, without setting flags (R5, R6). A posting
names two accounts the store holds; where one is missing nothing moves (log 20). -/
def State.move (s : State) (debit credit amount : Nat) : State :=
  match s.account debit, s.account credit with
  | some _, some _ =>
    ((s.postSide debit (-(amount : Int))).postSide credit (amount : Int)).latchSaturated
      debit (s.moveSats debit credit amount).1 credit (s.moveSats debit credit amount).2
  | _, _ => s

/-- A forced posting: the move, then the outcome flags of both accounts (R5, R7). -/
def State.post (s : State) (debit credit amount : Nat) : State :=
  match s.account debit, s.account credit with
  | some _, some _ =>
    ((s.move debit credit amount).setFlags debit (s.moveSats debit credit amount).1).setFlags credit
      (s.moveSats debit credit amount).2
  | _, _ => s

/-- An OPEN boat or buyer account whose available credit is below zero becomes STOPPED OVERLIMIT (R8). -/
def State.stopIfShort (s : State) (n : Nat) : State :=
  match s.account n with
  | none => s
  | some a =>
    if a.short && a.state == .opened then
      (s.modAccount n (fun a => { a with state := .stopped, cause := .overlimit })).latch .accountStopped (.account n)
    else s

/-- The outcome flags of an account as they stand. -/
def State.flagsOf (s : State) (n : Nat) : Flags :=
  match s.account n with
  | none => { n := false, z := false, v := false, l := false }
  | some a => a.flags

/-! ## Day totals (R9) -/

/-- A day total added to, held at 4,000,000,000 (R9). -/
def addTotal (t x : Nat) : Nat := min 4000000000 (t + x)

def State.addTotals (s : State) (n : Nat) (f : DayTotals → DayTotals) : State :=
  s.modAccount n (fun a => { a with totals := f a.totals })

def DayTotals.zero : DayTotals := { landed := 0, sold := 0, bought := 0, ice := 0, levies := 0 }

/-! ## Crate balances (R1, R120) -/

/-- The crate balance of a type. -/
def Account.crateBalance (a : Account) (t : Nat) : Int := (a.crates.find t).getD 0

/-- Sets a crate balance; a balance of 0 is not listed. -/
def Account.setCrates (a : Account) (t : Nat) (x : Int) : Account :=
  { a with crates := if x = 0 then a.crates.erase t else a.crates.set t x }

/-- Every crate balance is 0 (R21). -/
def Account.noCrates (a : Account) : Bool := a.crates.all (fun x => x.2 == 0)

def State.addCrateResidue (s : State) (t : Nat) (x : Int) : State :=
  { s with crateTypes := s.crateTypes.modify t (fun c => { c with residue := c.residue + x }) }

/-- A crate balance changed by a count, held at its bounds, the unapplied part in the type's crate residue (R120). -/
def State.addCrates (s : State) (n t : Nat) (delta : Int) : State :=
  match s.account n with
  | none => s
  | some a =>
    (s.modAccount n (fun a => a.setCrates t (clampBalance (a.crateBalance t + delta)))).addCrateResidue t
      (unapplied (a.crateBalance t) delta)

/-! ## Holds (R10 to R12) -/

/-- The hold list holds 16 holds (R10). -/
def State.holdsFull (s : State) : Bool := 16 ≤ s.bank.holds.length

/-- The value after a hold id: on to 1 after 255 (R10). -/
def nextId (i : Nat) : Nat := if i < 255 then i + 1 else 1

/-- The first id, counting on from a value and from 255 to 1, that no hold carries (R10); `n` bounds the search. -/
def freeHoldId : Nat → Nat → List Hold → Nat
  | 0, i, _ => i
  | n + 1, i, hs => if hs.any (fun h => h.id == i) then freeHoldId n (nextId i) hs else i

/-- The id the next hold takes (R10). -/
def State.newHoldId (s : State) : Nat := freeHoldId 255 s.bank.nextHold s.bank.holds

/-- A hold placed at the end of the list, the account's held amount raised (R10). -/
def State.addHold (s : State) (account amount : Nat) (owner : HoldOwner) : State :=
  let id := s.newHoldId
  let h : Hold := { id := id, account := account, amount := amount, owner := owner, at_ := s.clock }
  let s := s.modAccount account (fun a => { a with held := a.held + amount })
  { s with bank := { s.bank with holds := s.bank.holds ++ [h], nextHold := nextId id } }

/-- The hold of an id. -/
def State.holdOf (s : State) (id : Nat) : Option Hold := s.bank.holds.find? (fun h => h.id == id)

/-- A hold removed wherever it stands, the account's held amount lowered (R10, R12). -/
def State.dropHold (s : State) (id : Nat) : State :=
  match s.holdOf id with
  | none => s
  | some h =>
    let s := s.modAccount h.account (fun a => { a with held := a.held - h.amount })
    { s with bank := { s.bank with holds := s.bank.holds.eraseP (fun h => h.id == id) } }

/-- The release of a chute's hold together with the charge of its dispense, in the order of R12: hold removed, forced
debit, ice day total, outcome flags, stop. -/
def State.chargeIce (s : State) (id account charge kg : Nat) : State :=
  let s := s.dropHold id
  let s := s.post account 0 charge
  let s := s.addTotals account (fun t => { t with ice := addTotal t.ice kg })
  s.stopIfShort account

end Sys2Proof.Machine
end

