-- ==== Sys2Proof/Machine/Records.lean ====
section
/-! DEFINITION. The record queue: claims, writing, and the telling of the rings (chapter 7). -/

namespace Sys2Proof.Machine

/-- The occupied count (R139). -/
def State.occupied (s : State) : Nat := s.queue.records.length

/-- A request for `c` claims can be granted (R141). -/
def State.canClaim (s : State) (c : Nat) : Bool := s.occupied + s.queue.owed + c ≤ 128

/-- The claims granted: the owed count rises (R141). -/
def State.takeClaims (s : State) (c : Nat) : State := { s with queue := { s.queue with owed := s.queue.owed + c } }

/-- A ring stalled CLAIMS in WAITING is told to ask again (R145). A ring in LEAD_IN with fewer than 2 claims may ask
at any time (CLAIM_TOP_UP); it is granted only after a release or removal. -/
def Ring.tellClaims (r : Ring) : Ring :=
  if r.state == .waiting && r.stall == .claims then { r with told := true } else r

/-- A ring stalled PROFILE is told to ask again (R51, R185). -/
def Ring.tellProfile (r : Ring) : Ring :=
  if r.state == .waiting && r.stall == .profile then { r with told := true } else r

/-- A ring told of a number of places freed; where none is freed there is nothing to tell (R145). -/
def Ring.tellFreed (r : Ring) (c : Nat) : Ring := if c = 0 then r else r.tellClaims

/-- The record queue tells the rings of places freed (R145). -/
def State.tellRings (s : State) (c : Nat) : State := { s with rings := s.rings.map (fun x => x.tellFreed c) }

/-- Claims released unused: the owed count falls and the rings are told (R145). -/
def State.releaseClaims (s : State) (c : Nat) : State :=
  { s with queue := { s.queue with owed := s.queue.owed - c } }.tellRings c

/-- The oldest records removed, and the rings told of their places (R145, R147). -/
def State.removeRecords (s : State) (k : Nat) : State :=
  { s with queue := { s.queue with records := s.queue.records.drop k } }.tellRings k

/-- The number after a record number or a lot number: on to 1 after 65,535 (R37, R140). -/
def nextNumber (n : Nat) : Nat := if n < 65535 then n + 1 else 1

/-- A record written with a claim the writer holds; RECORDS_HIGH where the count passes from 95 to 96 (R144). -/
def State.writeRecordAt (s : State) (body : RecordBody) (at_ : Stamp) : State :=
  let n := s.queue.next
  let s' := { s with queue := { records := s.queue.records ++ [{ number := n, body := body, at_ := at_ }],
                                owed := s.queue.owed - 1, next := nextNumber n } }
  if s.occupied = 95 then s'.latch .recordsHigh (.record n) else s'

/-- A record bearing the hall time of the event (R140). -/
def State.writeRecord (s : State) (body : RecordBody) : State := s.writeRecordAt body s.clock

end Sys2Proof.Machine
end

