-- ==== Sys2Proof/Machine/Sale.lean ====
section
/-! DEFINITION. The sale calculator (chapter 4): sold net, value, levies, deposit, charge, affordable count, and the
figures of ice (R94, R95). It has no state. -/

namespace Sys2Proof.Machine

/-- The sold net of `k` crates (R80). -/
def soldNet (nr cr k : Nat) : Nat := if k = cr then nr else nr * k / cr

/-- The value of a sold net at a price, rounded half up (R81). -/
def saleValue (w p : Nat) : Nat := (w * p + 50) / 100

/-- A levy at a rate in basis points, rounded half up (R82). -/
def levy (v rate : Nat) : Nat := (v * rate + 5000) / 10000

/-- What a sale is figured from (Table 4-1). -/
structure SaleInputs where
  netRemaining : Nat
  cratesRemaining : Nat
  price : Nat
  sellerRate : Nat
  buyerRate : Nat
  deposit : Nat
  deriving DecidableEq, Repr

/-- The figures of a sale of `k` crates (R80 to R83). -/
structure SaleFigures where
  w : Nat
  value : Nat
  sellerLevy : Nat
  commission : Nat
  deposit : Nat
  deriving DecidableEq, Repr

def SaleInputs.figures (i : SaleInputs) (k : Nat) : SaleFigures :=
  let w := soldNet i.netRemaining i.cratesRemaining k
  let v := saleValue w i.price
  { w := w, value := v, sellerLevy := levy v i.sellerRate, commission := levy v i.buyerRate, deposit := k * i.deposit }

/-- The buyer charge (R83). -/
def SaleFigures.charge (f : SaleFigures) : Nat := f.value + f.commission + f.deposit

/-- The boat credit (R83). -/
def SaleFigures.boatCredit (f : SaleFigures) : Nat := f.value - f.sellerLevy

/-- The crates a slot wants: 0, or more than remain, means all that remain (R84). -/
def clampWanted (wanted remaining : Nat) : Nat := if wanted = 0 || remaining < wanted then remaining else wanted

/-- The largest number of crates from `k` down to 1 whose charge the credit covers, or 0 (R84). -/
def affordable (i : SaleInputs) (credit : Int) : Nat → Nat
  | 0 => 0
  | k + 1 => if (((i.figures (k + 1)).charge : Nat) : Int) ≤ credit then k + 1 else affordable i credit k

/-- The granted quantity of an ice request (R95). -/
def grantedIce (ordered price : Nat) (credit : Int) : Nat :=
  if price = 0 then ordered else min ordered (credit / (price : Int)).toNat

end Sys2Proof.Machine
end

