-- ==== Sys2Proof/Machine/Board.lean ====
section
/-! DEFINITION. The bytes of the lines' layouts (chapter 12) and the board composer with the floor transmitter
(chapter 9). -/

namespace Sys2Proof.Machine

/-! ## Bytes (spec/12: high byte first, signed in two's complement) -/

/-- A number in `w` bytes, high byte first. -/
def be : Nat → Nat → List Byte
  | 0, _ => []
  | w + 1, x => BitVec.ofNat 8 (x / 256 ^ w) :: be w x

/-- A signed number in `w` bytes, two's complement. -/
def beInt (w : Nat) (x : Int) : List Byte := be w (x % (256 ^ w : Nat)).toNat

/-- All ones in `w` bytes. -/
def ones (w : Nat) : List Byte := List.replicate w 0xFF

/-- An optional field whose range does not hold 0: absent carries 0. -/
def optZero (w : Nat) (x : Option Nat) : List Byte := be w (x.getD 0)

/-- An optional field whose range holds 0: absent carries all ones. -/
def optOnes (w : Nat) (x : Option Nat) : List Byte :=
  match x with
  | none => ones w
  | some v => be w v

/-- An optional signed field: absent carries all ones. -/
def optInt (w : Nat) (x : Option Int) : List Byte :=
  match x with
  | none => ones w
  | some v => beInt w v

/-- A mark: 1 set, 0 clear. -/
def markByte (b : Bool) : List Byte := [if b then 1 else 0]

/-- A time of day (4) and day (2). -/
def stampBytes (t : Stamp) : List Byte := be 4 t.tod ++ be 2 t.day

/-- An optional time of day and day. -/
def optStamp (t : Option Stamp) : List Byte :=
  match t with
  | none => ones 6
  | some t => stampBytes t

/-- The code of an answer (Table 12-8). -/
def AnswerCode.code : AnswerCode → Nat
  | .accepted => 1 | .busy => 2 | .notFound => 3 | .kind => 4 | .species => 5 | .crateType => 6 | .count => 7
  | .crates => 8 | .full => 9 | .noDraft => 10 | .captured => 11 | .overload => 12 | .underweight => 13
  | .cancelled => 14 | .timeout => 15 | .lost => 16 | .granted => 17 | .stopped => 18 | .credit => 19
  | .noDispense => 20 | .ended => 21 | .opened => 22 | .direction => 23 | .noSession => 24 | .duplicate => 25
  | .late => 26 | .early => 27 | .held => 28 | .closed => 29 | .unknown => 30 | .notPermitted => 31

/-- The code of a ring state (Table 12-9). -/
def RingState.code : RingState → Nat
  | .idle => 0 | .waiting => 1 | .leadIn => 2 | .descending => 3 | .resolving => 4 | .afterSale => 5 | .held => 6

/-! ## Floor frames (Table 12-4) -/

/-- The keypad answer frame. -/
def KeypadAnswer.frame (a : KeypadAnswer) : Frame :=
  { dst := Config.floorAddress, src := 0, kind := 0x12,
    payload := be 1 a.keypad ++ be 1 a.ring ++ be 1 a.code.code ++ optZero 2 a.lot ++ optZero 1 a.crates
      ++ optZero 3 a.price ++ optStamp a.arrival }

/-- The board frame of a ring, from its slot's content and its hold marks (R172, R174). -/
def BoardContent.frame (c : BoardContent) (r : RingNo) (setSeen clearSeen : Bool) : Frame :=
  { dst := Config.floorAddress, src := 0, kind := 0x13,
    payload := be 1 r.num ++ be 1 c.state.code
      ++ be 1 (c.held.toNat + 2 * setSeen.toNat + 4 * clearSeen.toNat)
      ++ optZero 2 c.lot ++ optZero 2 c.boat ++ optZero 2 c.species ++ optOnes 1 c.crates ++ optOnes 3 c.net
      ++ optZero 3 c.price ++ optZero 1 (c.lastSale.map (·.keypad)) ++ optZero 1 (c.lastSale.map (·.crates))
      ++ optZero 3 (c.lastSale.map (·.price)) }

/-- The TEXT frame of a line. -/
def textFrame (line : Nat) (chars : List Byte) : Frame :=
  { dst := Config.floorAddress, src := 0, kind := 0x14, payload := be 1 line ++ chars }

/-! ## Board slots (R172) -/

/-- The figures of an offer's lot: those of the lot in the table, or none where the offer has sold out, whose number
another lot may carry by then (R64, R172). -/
def State.offeredLot (s : State) (x : Ring) (o : Offer) : Option Lot :=
  if x.state == .afterSale then none else s.lotStore.lots.find o.lot

/-- The content a ring gives its slot. While the lot stands in the table its figures are read from it; after a
sell-out the slot keeps boat and species, with 0 crates and 0 net (R172). -/
def State.boardContent (s : State) (r : RingNo) : BoardContent :=
  let x := s.ring r
  let old := (s.slot r).content
  match x.offer with
  | none =>
    { state := x.state, held := x.state == .held, lot := none, boat := none, species := none, crates := none,
      net := none, price := none, lastSale := none }
  | some o =>
    match s.offeredLot x o with
    | some l =>
      { state := x.state, held := x.state == .held, lot := some o.lot, boat := some l.boat, species := some l.species,
        crates := some l.remaining, net := some l.netRemaining, price := some o.price, lastSale := o.lastSale }
    | none =>
      { state := x.state, held := x.state == .held, lot := some o.lot, boat := old.bind (·.boat),
        species := old.bind (·.species), crates := some 0, net := some 0, price := some o.price,
        lastSale := o.lastSale }

/-- The readiness after a change of content, by its class (R172). -/
def BoardSlot.take (b : BoardSlot) (old new : BoardContent) : BoardSlot :=
  if old = new then b
  else if { old with price := new.price } = new then
    { b with
      content := some new
      readiness :=
        match b.readiness with
        | .ready => .ready
        | .paced => .paced
        | .none => if b.pace.isSome then .paced else .ready }
  else { b with content := some new, readiness := .ready }

/-- A resolution of the ring has judged slot 1 and not yet slot 2 (R61). -/
def Ring.midway (x : Ring) : Bool := x.state == .resolving && x.offer.any (fun o => o.midway.isSome)

/-- A ring's board content copied into its slot (R172); a slot without content takes none until RUN (R178), and a
resolution, one event at the ring, changes the slot when it is over (R61). -/
def State.syncSlot (s : State) (r : RingNo) : State :=
  match (s.slot r).content with
  | none => s
  | some old => if (s.ring r).midway then s else s.setSlot r ((s.slot r).take old (s.boardContent r))

/-- The changes of all rings copied into their slots. -/
def State.syncSlots (s : State) : State := (((s.syncSlot .r1).syncSlot .r2).syncSlot .r3).syncSlot .r4

/-! ## Keypad answers (R169) -/

/-- An answer joins the queue, or is dropped from a full one with OUTBOUND_DROPPED latched (R169). -/
def State.giveAnswer (s : State) (a : KeypadAnswer) : State :=
  if s.boards.answers.length < 16 then { s with boards := { s.boards with answers := s.boards.answers ++ [a] } }
  else
    s.latchCause .floorErrors (if 1 ≤ a.ring && a.ring ≤ 4 then .ring a.ring else .none) (some .answerDropped)

/-! ## The floor transmitter (R170, R171) -/

/-- The line of the board text; a line not listed holds 0 characters (R175). -/
def State.textLine (s : State) (n : Nat) : List Byte := (s.boards.text.find n).getD []

/-- A board frame of this ring is due: its slot is ready with content, and the part is in RUN (R170, R171). -/
def State.boardDue (s : State) (r : RingNo) : Bool :=
  s.op == .run && (s.slot r).readiness == .ready && (s.slot r).content.isSome

/-- The board frame of a ring placed: hold marks carried and cleared, readiness NONE, pace timer started
(R172 to R174). -/
def State.placeBoard (s : State) (r : RingNo) : State :=
  match (s.slot r).content with
  | none => s
  | some c =>
    let x := s.ring r
    let s := { s with floor := s.floor.place (c.frame r x.setSeen x.clearSeen) }
    let s := s.setRing r { x with setSeen := false, clearSeen := false }
    s.setSlot r { (s.slot r) with readiness := .none, pace := some (Timer.start s.par.boardInterval) }

/-- One decision of the floor transmitter: the front answer, else the board frame of the lowest-numbered ready ring,
else the lowest pending text line; nothing while the floor is down or the stage is full (R170, R171). -/
def State.floorDecideOnce (s : State) : State :=
  if s.floorLine.cond == .up && s.floor.stage.isNone then
    match s.boards.answers with
    | a :: rest =>
      { s with floor := s.floor.place a.frame, boards := { s.boards with answers := rest } }
    | [] =>
      match allRings.find? s.boardDue with
      | some r => s.placeBoard r
      | none =>
        match s.boards.showing with
        | n :: rest =>
          { s with floor := s.floor.place (textFrame n (s.textLine n)), boards := { s.boards with showing := rest } }
        | [] => s
  else s

/-- The transmitter's decisions at one event: a frame placed on an idle line empties the stage, which is the next
event to decide at (R151, R170, log 29). -/
def State.floorDecide (s : State) : State := s.floorDecideOnce.floorDecideOnce

/-- The end of a step that may change rings, answers or boards: the changes reach the slots, and the transmitter
decides (R170, R172). -/
def State.settleFloor (s : State) : State := s.syncSlots.floorDecide

end Sys2Proof.Machine
end

