-- ==== Sys2Proof/Machine/Lots.lean ====
section
/-! DEFINITION. The lot store and the ring queues (sections 3.1, 3.8), and the crates and deposit of a withdrawal. -/

namespace Sys2Proof.Machine

def State.lot (s : State) (n : Nat) : Option Lot := s.lotStore.lots.find n
def State.modLot (s : State) (n : Nat) (f : Lot → Lot) : State :=
  { s with lotStore := { s.lotStore with lots := s.lotStore.lots.modify n f } }

/-- The lot leaves the table; its entry becomes free (R47). -/
def State.dropLot (s : State) (n : Nat) : State :=
  { s with lotStore := { s.lotStore with lots := s.lotStore.lots.erase n } }

/-- The Lot Table has a free entry beyond those reserved (R31, check 8; R47). -/
def State.lotRoom (s : State) : Bool := s.lotStore.lots.length + s.lotStore.reserved < 256

def State.reserveLot (s : State) : State := { s with lotStore := { s.lotStore with reserved := s.lotStore.reserved + 1 } }
def State.unreserveLot (s : State) : State :=
  { s with lotStore := { s.lotStore with reserved := s.lotStore.reserved - 1 } }

/-- The first lot number, counting on from a value and from 65,535 to 1, that no lot carries (R37); `n` bounds the
search, and 257 tries find one among at most 256 lots. -/
def freeLotNumber : Nat → Nat → Table Lot → Nat
  | 0, i, _ => i
  | n + 1, i, t => if (t.find i).isSome then freeLotNumber n (nextNumber i) t else i

/-- The number the next landed lot takes (R37). -/
def State.newLotNumber (s : State) : Nat := freeLotNumber 257 s.lotStore.next s.lotStore.lots

/-! ## Ring queues (R48) -/

/-- A lot placed at the back. -/
def Ring.enqueue (x : Ring) (n : Nat) : Ring := { x with queue := x.queue ++ [n] }

/-- A lot placed at the front. A ring stalled PROFILE tries its new front lot (R51). -/
def Ring.pushFront (x : Ring) (n : Nat) : Ring := { x with queue := n :: x.queue }.tellProfile

/-- A lot removed from wherever it stands. The stall ends with an empty queue (R52, R53); a ring stalled PROFILE whose
front lot is removed tries its new front lot (R73). -/
def Ring.removeLot (x : Ring) (n : Nat) : Ring :=
  let q := x.queue.erase n
  let y := { x with queue := q }
  if q.isEmpty && x.state == .waiting then { y with stall := .none, told := false }
  else if x.queue.head? == some n then y.tellProfile
  else y

def State.modRing (s : State) (r : RingNo) (f : Ring → Ring) : State := s.setRing r (f (s.ring r))

/-- The deposit of a crate type's CRATES entry as it stands. -/
def State.depositOf (s : State) (t : Nat) : Nat :=
  match s.crateTypes.find t with
  | none => 0
  | some c => c.deposit

/-- The account request of a withdrawal: the lot's crates remaining go back to the boat, and the boat is debited their
deposit, forced; it may be stopped OVERLIMIT (R58, R73). -/
def State.returnCrates (s : State) (l : Lot) : State :=
  ((s.addCrates l.boat l.ctype (l.remaining : Int)).post l.boat 0 (s.depositOf l.ctype * l.remaining)).stopIfShort
    l.boat

end Sys2Proof.Machine
end

