-- ==== Sys2Proof/Machine/Rings.lean ====
section
/-! DEFINITION. The clock rings: the shared operations of offers, stops, resolutions and HELD (chapter 3). -/

namespace Sys2Proof.Machine

/-- The floor line is neither in BREAK nor SILENT (R69). -/
def State.floorUp (s : State) : Bool := s.floorLine.cond == .up

/-! ## Lead-in and descent (R55, R56) -/

/-- The claims missing asked for together, whole or not at all (R55, R141). -/
def State.askTopUp (s : State) (r : RingNo) : State :=
  let missing := 2 - (s.ring r).claims
  if s.canClaim missing then (s.takeClaims missing).modRing r (fun x => { x with claims := x.claims + missing }) else s

/-- DESCENDING entered: the step timer starts from 0 (R56). -/
def Ring.descend (x : Ring) : Ring :=
  { x with
    state := .descending
    stall := .none
    told := false
    timer := x.offer.map (fun o => Timer.start o.profile.interval) }

/-- A stall begins: RING_STALLED, and RECORDS_FULL where claims are wanted (R52, R53, R55). -/
def State.stallRing (s : State) (r : RingNo) (w : Stall) : State :=
  let s := s.modRing r (fun x => { x with stall := w, told := false })
  let s := s.latch .ringStalled (.ring r.num)
  if w == .claims then s.latch .recordsFull (.ring r.num) else s

/-- The pause is over: DESCENDING with 2 claims, else stall CLAIMS in LEAD_IN (R55). -/
def State.pauseOver (s : State) (r : RingNo) : State :=
  let s := s.modRing r (fun x => { x with timer := none })
  if (s.ring r).claims = 2 then s.modRing r Ring.descend else s.stallRing r .claims

/-- LEAD_IN entered for a pause: missing claims asked for at once, the pause timer started, and a pause of 0 over at
once (R55). -/
def State.enterLeadIn (s : State) (r : RingNo) (pause : Nat) : State :=
  let s := s.modRing r (fun x => { x with state := .leadIn, stall := .none, told := false, timer := some (Timer.start pause) })
  let s := if (s.ring r).claims < 2 then s.askTopUp r else s
  if pause = 0 then s.pauseOver r else s

/-! ## HELD (R66, R67, R69) -/

/-- HELD entered with the causes given: the set-seen mark, the timers' elapsed parts discarded, any stall ended (R66). -/
def Ring.hold (x : Ring) (office floor : Bool) : Ring :=
  { x with state := .held, heldOffice := office, heldFloor := floor, setSeen := true, stall := .none, told := false,
           timer := none }

/-- HELD left at the event that empties its causes: the clear-seen mark, then LEAD_IN for the resume pause with an
offer, WAITING without one (R66). -/
def State.leaveHeld (s : State) (r : RingNo) : State :=
  let s := s.modRing r (fun x => { x with heldOffice := false, heldFloor := false, clearSeen := true })
  match (s.ring r).offer with
  | some o => s.enterLeadIn r o.profile.resumePause
  | none => s.modRing r (fun x => { x with state := .waiting, stall := .none, told := false, timer := none })

/-- A floor-down report at one ring (R69). -/
def Ring.floorDown (x : Ring) : Ring :=
  match x.state with
  | .leadIn | .descending => x.hold false true
  | _ => x

/-- A floor-recovery report at one ring (R69). -/
def State.ringFloorUp (s : State) (r : RingNo) : State :=
  let x := s.ring r
  if x.state == .held && x.heldFloor then
    if x.heldOffice then s.setRing r { x with heldFloor := false } else s.leaveHeld r
  else s

/-! ## Offers (R51 to R54) -/

/-- The SPECIES entry of a code. -/
def State.speciesOf (s : State) (code : Nat) : Option Species := (s.species.find? (fun x => x.2.code == code)).map (·.2)

/-- The profile a lot would be offered with: its species' entry and the PROFILES entry that names (R52). -/
def State.profileFor (s : State) (l : Lot) : Option Profile :=
  (s.speciesOf l.species).bind (fun e => s.profiles.find e.profile)

/-- The offer context at its start (Table 3-4, R54). -/
def newOffer (n : Nat) (l : Lot) (p : Profile) : Offer :=
  { lot := n, profile := p, effFloor := max p.floor (l.reserve.getD 0), startPrice := max p.start (l.reserve.getD 0),
    price := max p.start (l.reserve.getD 0), slot1 := none, slot2 := none, lastSale := none, midway := none }

/-- An attempt to start an offer is due: WAITING, a lot in the queue, no HELD cause, and not stalled or told to ask
again (R51). -/
def Ring.startDue (x : Ring) : Bool :=
  x.state == .waiting && !x.queue.isEmpty && !x.heldOffice && !x.heldFloor && (x.stall == .none || x.told)

/-- One attempt to start an offer for the front lot (R51 to R53). The floor line is tested first: while it is down the
ring enters HELD FLOOR, and neither the lot's SPECIES and PROFILES entries nor the claims are judged, so no stall is
entered. R51 and R69 leave open which of the two comes first: DESIGN CHOICE (log 35). -/
def State.attemptOffer (s : State) (r : RingNo) : State :=
  let x := s.ring r
  match x.queue with
  | [] => s
  | n :: rest =>
    if !s.floorUp then s.setRing r (x.hold false true)
    else
      match s.lot n with
      | none => s
      | some l =>
        match s.profileFor l with
        | none =>
          if x.stall == .profile then s.setRing r { x with told := false } else s.stallRing r .profile
        | some p =>
          if s.canClaim 2 then
            let s := (s.takeClaims 2).modLot n (fun l => { l with state := .onClock, offers := l.offers + 1 })
            let s := s.setRing r { x with queue := rest, offer := some (newOffer n l p), claims := 2, stall := .none, told := false }
            s.enterLeadIn r p.leadIn
          else if x.stall == .claims then s.setRing r { x with told := false }
          else s.stallRing r .claims

/-- The ring gives up its offer: claims released, offer discarded, slots with it, and the state left (R57, R71). -/
def State.closeOffer (s : State) (r : RingNo) (st : RingState) : State :=
  let c := (s.ring r).claims
  let s := s.modRing r (fun x => { x with state := st, offer := none, claims := 0, stall := .none, told := false, timer := none })
  s.releaseClaims c

/-- The lot of an offer goes back to the front of its ring's queue, its offers made lowered (R71, R76). -/
def State.returnLot (s : State) (r : RingNo) (n : Nat) : State :=
  (s.modLot n (fun l => { l with state := .queued, offers := l.offers - 1 })).modRing r
    (fun x => { x with queue := n :: x.queue })

/-! ## Run-out (R57, R58) -/

/-- A run-out: requeue within the re-offer limit, withdrawal past it. -/
def State.runOut (s : State) (r : RingNo) (o : Offer) : State :=
  match s.lot o.lot with
  | none => s
  | some l =>
    if l.offers ≤ s.par.reofferLimit then
      let s := s.modLot o.lot (fun l => { l with state := .queued })
      (s.closeOffer r .waiting).modRing r (fun x => x.enqueue o.lot)
    else
      let s := s.returnCrates l
      let s := s.writeRecord (.withdrawn o.lot l.boat l.remaining l.netRemaining .runOut)
      let s := (s.modRing r (fun x => { x with claims := x.claims - 1 })).dropLot o.lot
      s.closeOffer r .waiting

/-! ## Stops (R59) -/

/-- The answer of a ring to a stop, at once (section 3.5): the lot number where an offer is present. -/
def Ring.answerNow (x : Ring) (r : RingNo) (keypad : Nat) (code : AnswerCode) : KeypadAnswer :=
  { keypad := keypad, ring := r.num, code := code, lot := x.offer.map (·.lot), crates := none, price := none,
    arrival := none }

/-- A stop reaching a ring that has no resolution under way (Table 3-5). -/
def State.stopAtRing (s : State) (r : RingNo) (keypad wanted : Nat) : State :=
  let x := s.ring r
  let slot : StopSlot := { keypad := keypad, wanted := wanted, at_ := s.clock }
  match x.state, x.offer with
  | .descending, some o =>
    s.setRing r { x with state := .resolving, offer := some { o with slot1 := some slot },
                         timer := some (Timer.start s.par.resolveWindow) }
  | .resolving, some o =>
    if o.slot1.any (fun t => t.keypad == keypad) || o.slot2.any (fun t => t.keypad == keypad) then
      s.giveAnswer (x.answerNow r keypad .duplicate)
    else if o.slot2.isNone then s.setRing r { x with offer := some { o with slot2 := some slot } }
    else s.giveAnswer (x.answerNow r keypad .late)
  | .leadIn, _ => s.giveAnswer (x.answerNow r keypad .early)
  | .held, _ => s.giveAnswer (x.answerNow r keypad .held)
  | _, _ => s.giveAnswer (x.answerNow r keypad .closed)

/-! ## Resolution (R61 to R65, R85 to R91) -/

/-- Check 1 of Table 3-6: the keypad's entry and its buyer. -/
def State.keypadBuyer (s : State) (keypad : Nat) : Option (Keypad × Account) :=
  match s.keypads.find keypad with
  | none => none
  | some kp =>
    if kp.enabled then
      match kp.account.bind s.account with
      | none => none
      | some a => if a.kind == .buyer then some (kp, a) else none
    else none

/-- The figures' inputs as they stand at a slot's request (Table 4-1). -/
def State.saleInputs (s : State) (l : Lot) (price : Nat) : SaleInputs :=
  { netRemaining := l.netRemaining, cratesRemaining := l.remaining, price := price,
    sellerRate := s.par.sellerLevy, buyerRate := s.par.buyerCommission, deposit := s.depositOf l.ctype }

/-- The two postings of a sale and then the outcome flags of buyer, boat and hall (R86). The hall's V is set if either
posting saturated it (log 22). -/
def State.salePostings (s : State) (buyer boat charge boatCredit : Nat) : State :=
  let m1 := s.moveSats buyer 0 charge
  let s1 := s.move buyer 0 charge
  let m2 := s1.moveSats 0 boat boatCredit
  (((s1.move 0 boat boatCredit).setFlags buyer m1.1).setFlags boat m2.2).setFlags 0 (m1.2 || m2.1)

/-- The crates and day totals of a sale at the account store (R90). -/
def State.saleTotals (s : State) (buyer boat ctype k : Nat) (f : SaleFigures) : State :=
  ((s.addCrates buyer ctype (k : Int)).addTotals boat
    (fun t => { t with sold := addTotal t.sold f.value, levies := addTotal t.levies f.sellerLevy })).addTotals buyer
    (fun t => { t with bought := addTotal t.bought f.value, levies := addTotal t.levies f.commission })

/-- The lot after a sale (R88). -/
def Lot.sell (l : Lot) (k w : Nat) : Lot :=
  { l with remaining := l.remaining - k, netRemaining := l.netRemaining - w, soldCrates := l.soldCrates + k,
           soldNet := l.soldNet + w }

/-- The whole sale request of a slot that buys `k` crates, with its SALE record and the ring's claim (R63, R85). -/
def State.sell (s : State) (r : RingNo) (lotNo keypad : Nat) (l : Lot) (buyer : Nat) (price k : Nat) : State :=
  let f := (s.saleInputs l price).figures k
  let s := s.salePostings buyer l.boat f.charge f.boatCredit
  let s := s.saleTotals buyer l.boat l.ctype k f
  let s := s.modLot lotNo (fun l => l.sell k f.w)
  let s := s.writeRecord (.sale lotNo r.num keypad buyer l.boat k f.w price f.value f.sellerLevy f.commission
    f.deposit (s.flagsOf buyer))
  s.modRing r (fun x => { x with
    claims := x.claims - 1
    offer := x.offer.map (fun o => { o with lastSale := some { keypad := keypad, crates := k, price := price } }) })

/-- The answer to a stop held in a slot, with its arrival (section 3.5). -/
def slotAnswer (r : RingNo) (lotNo : Nat) (t : StopSlot) (code : AnswerCode) : KeypadAnswer :=
  { keypad := t.keypad, ring := r.num, code := code, lot := some lotNo, crates := none, price := none,
    arrival := some t.at_ }

/-- One slot judged by the checks of Table 3-6, in order; a slot that passes buys its affordable count (R62, R63). -/
def State.resolveSlot (s : State) (r : RingNo) (o : Offer) (t : StopSlot) : State :=
  match s.lot o.lot with
  | none => s
  | some l =>
    match s.keypadBuyer t.keypad with
    | none => s.giveAnswer (slotAnswer r o.lot t .unknown)
    | some (kp, a) =>
      if !(kp.rings.get r) then s.giveAnswer (slotAnswer r o.lot t .notPermitted)
      else if a.state == .stopped then s.giveAnswer (slotAnswer r o.lot t .stopped)
      else
        let k := affordable (s.saleInputs l o.price) a.available (clampWanted t.wanted l.remaining)
        if k = 0 then s.giveAnswer (slotAnswer r o.lot t .credit)
        else
          (s.sell r o.lot t.keypad l a.number o.price k).giveAnswer
            { slotAnswer r o.lot t .accepted with crates := some k, price := some o.price }

/-- The crates remaining on a lot; 0 where it has left the table. -/
def State.cratesLeft (s : State) (n : Nat) : Nat :=
  match s.lot n with
  | none => 0
  | some l => l.remaining

/-- A slot of the offer resolved, if it holds a stop. -/
def State.resolveHeld (s : State) (r : RingNo) (o : Offer) (slot : Option StopSlot) : State :=
  match slot with
  | none => s
  | some t => s.resolveSlot r o t

/-- Slot 2 after slot 1: answered LATE where slot 1 took the last crates (R61). -/
def State.resolveSecond (s : State) (r : RingNo) (o : Offer) : State :=
  match o.slot2 with
  | none => s
  | some t => if s.cratesLeft o.lot = 0 then s.giveAnswer (slotAnswer r o.lot t .late) else s.resolveSlot r o t

/-- The after-sale hold is over: the offer discarded, WAITING, or HELD by a pending HOLD (R64, R67). -/
def State.afterSaleOver (s : State) (r : RingNo) : State :=
  s.modRing r (fun x =>
    let y := { x with offer := none, timer := none, holdPending := false }
    if x.holdPending then y.hold true false else { y with state := .waiting, stall := .none, told := false })

/-- No crates remain: the lot leaves the table, the claims still held are released, AFTER_SALE (R64). -/
def State.sellOut (s : State) (r : RingNo) (o : Offer) : State :=
  let c := (s.ring r).claims
  let s := s.dropLot o.lot
  let s := s.modRing r (fun x => { x with state := .afterSale, claims := 0, timer := some (Timer.start o.profile.afterSale) })
  let s := s.releaseClaims c
  if o.profile.afterSale = 0 then (s.syncSlot r).afterSaleOver r else s

/-- The price an offer resumes at (R65). -/
def resumePrice (o : Offer) (sold : Bool) : Nat :=
  if sold then min (o.price + o.profile.restartRaise * o.profile.step) o.startPrice else o.price

/-- Crates remain: the price, then LEAD_IN for the resume pause, or HELD with the causes that apply (R65). -/
def State.resume (s : State) (r : RingNo) (o : Offer) (sold : Bool) : State :=
  let s := s.modRing r (fun x => { x with offer := x.offer.map (fun y => { y with price := resumePrice o sold }) })
  let pending := (s.ring r).holdPending
  if pending || !s.floorUp then
    s.modRing r (fun x => { x.hold pending (!s.floorUp) with holdPending := false })
  else s.enterLeadIn r o.profile.resumePause

/-- The offer once its slots are empty. -/
def Offer.emptied (o : Offer) : Offer := { o with slot1 := none, slot2 := none, midway := none }

/-- The rest of a resolution whose slot 1 is judged: slot 2, the slots emptied, and the ring going on (R61, R64, R65).
`sold` tells that slot 1 bought crates. -/
def State.resolveRest (s : State) (r : RingNo) (o : Offer) (sold : Bool) : State :=
  let before := s.cratesLeft o.lot
  let s := s.resolveSecond r o
  let s := s.modRing r (fun x => { x with offer := x.offer.map Offer.emptied })
  let after := s.cratesLeft o.lot
  if after = 0 then s.sellOut r o else s.resume r o (sold || after < before)

/-- A resolution that has judged slot 1 and stands before slot 2 (R61). -/
def State.pauseResolution (s : State) (r : RingNo) (sold : Bool) : State :=
  s.modRing r (fun x => { x with offer := x.offer.map (fun o => { o with slot1 := none, midway := some sold }) })

/-- The resolution (R61 to R65): slot 1, then slot 2. Where slot 2 remains to be judged, requests of other blocks may be
taken between the two slots' requests (R61, R85, R93): whether the resolution goes on at once or stands between them
is free (log 5), and the next RESOLVE_EXPIRY goes on with one that stands. -/
def State.resolve (s : State) (r : RingNo) (o : Offer) : State :=
  match o.midway with
  | some sold => s.resolveRest r o sold
  | none =>
    let before := s.cratesLeft o.lot
    let s := s.resolveHeld r o o.slot1
    let sold := s.cratesLeft o.lot < before
    let (k, s) := s.choose (if o.slot2.isSome && 0 < s.cratesLeft o.lot then 2 else 1)
    if k = 0 then s.resolveRest r o sold else s.pauseResolution r sold

/-- A resolution that stands between its slots goes on to its end, for the resolution is one event at its ring (R61). -/
def State.finishResolution (s : State) (r : RingNo) : State :=
  match (s.ring r).state, (s.ring r).offer with
  | .resolving, some o =>
    match o.midway with
    | some sold => (s.resolveRest r o sold).settleFloor
    | none => s
  | _, _ => s

/-- Every resolution that stands between its slots goes on to its end, in either order (log 5). -/
def State.finishResolutions (s : State) : State :=
  let rs := allRings.filter (fun r => (s.ring r).midway)
  let (order, s) := State.order rs.length rs s
  order.foldl State.finishResolution s

/-! ## RESTART at a ring (R76) -/

/-- The stops in a ring's slots answered CLOSED, if the floor line is UP (R76). Slot 1's answer joins the queue before
slot 2's: R169 gives slot order for a resolution, and no sentence gives an order for these: DESIGN CHOICE (log 37). -/
def State.closeSlots (s : State) (r : RingNo) : State :=
  let x := s.ring r
  match x.state, x.offer with
  | .resolving, some o =>
    if s.floorUp then
      let s := match o.slot1 with
        | none => s
        | some t => s.giveAnswer (slotAnswer r o.lot t .closed)
      match o.slot2 with
      | none => s
      | some t => s.giveAnswer (slotAnswer r o.lot t .closed)
    else s
  | _, _ => s

/-- RESTART at one ring (R76). -/
def State.restartRing (s : State) (r : RingNo) : State :=
  let x := s.ring r
  let s := s.closeSlots r
  let s := match x.offer with
    | none => s
    | some o => if x.state == RingState.afterSale then s else s.returnLot r o.lot
  let s := s.closeOffer r .idle
  s.modRing r (fun x => { x with heldOffice := false, heldFloor := false, holdPending := false, setSeen := false, clearSeen := false })

end Sys2Proof.Machine
end

