-- ==== Sys2Proof/Machine/Ice.lean ====
section
/-! DEFINITION. The ice plant: arbiter, dispenses and bin (chapter 5). A chute is named by its quay address. -/

namespace Sys2Proof.Machine

/-- The effective floor: the office floor level, or the reserve level while the bin is LOW, whichever is greater
(R101); the reserve level is the one read at the last bin reading (R117, log 21). -/
def IcePlant.effFloor (p : IcePlant) : Nat := if p.low then max p.officeFloor p.reserve else p.officeFloor

def State.setIce (s : State) (p : IcePlant) : State := { s with ice := p }
def State.setScrew (s : State) (x : Screw) : State := s.setIce { s.ice with screw := x }

/-- The arbiter works: the poller is neither in LISTEN nor BROKEN (R103). -/
def State.arbiterWorks (s : State) : Bool :=
  match s.poller.state with
  | .listen => false
  | .broken _ => false
  | .off => true
  | .polling => true

def State.modJob (s : State) (a : Nat) (f : Dispense → Dispense) : State :=
  match s.chuteAt a with
  | none => s
  | some (_, c) => s.setChute a { c with job := c.job.map f }

/-! ## Latch list (R101, R199) -/

/-- One dispense stands ahead of another: by request time as the stamps read, then by the order of acceptance. -/
def Dispense.ahead (d e : Dispense) : Bool :=
  d.requested.before e.requested || (d.requested == e.requested && d.latchOrder < e.latchOrder)

/-- A chute placed at its dispense's place in the latch list. -/
def State.latchInsert (s : State) (a : Nat) (d : Dispense) : List Nat → List Nat
  | [] => [a]
  | b :: rest =>
    match s.jobAt b with
    | none => b :: s.latchInsert a d rest
    | some e => if d.ahead e then a :: b :: rest else b :: s.latchInsert a d rest

def State.latchChute (s : State) (a : Nat) (d : Dispense) : State :=
  s.setIce { s.ice with latch := s.latchInsert a d s.ice.latch }

def State.unlatchChute (s : State) (a : Nat) : State := s.setIce { s.ice with latch := s.ice.latch.erase a }

/-! ## Decision: pre-emption here, grants by SCREW_GRANT (R103 to R105) -/

/-- A latched chute whose class is above a level. -/
def State.latchedAbove (s : State) (lvl : Nat) : Bool :=
  s.ice.latch.any (fun a => (s.jobAt a).any (fun d => lvl < d.cls))

/-- The pre-emption test of a decision point (R105). -/
def State.arbiterDecide (s : State) : State :=
  match s.ice.screw with
  | .running a =>
    match s.chuteAt a with
    | some (_, c) =>
      match c.job with
      | some d =>
        if s.arbiterWorks && d.state == .running && s.latchedAbove (max d.runLevel s.ice.effFloor) then
          let s := s.modJob a (fun d => { d with state := .ending, pendingOutcome := some (.suspend .preempt) })
          (s.placeCommand a (.stop c.tag)).setScrew (.switching a)
        else s
      | none => s
    | none => s
  | _ => s

/-- The screw, where it serves a chute, enters IDLE (R108, R110). -/
def State.freeScrew (s : State) (a : Nat) : State :=
  if s.ice.screw == .running a || s.ice.screw == .switching a then s.setScrew .idle else s

/-! ## The end of a dispense (R110) -/

/-- The end of a dispense up to its answer: latch list, screw, account, ICE record, chute IDLE (R110). `kg` is the
delivered kilograms. -/
def State.closeDispense (s : State) (a : Nat) (d : Dispense) (kg : Nat) (cause : IceCause) : State :=
  let s := (s.unlatchChute a).freeScrew a
  let charge := if d.started then kg * d.price else 0
  let s := if d.started then s.chargeIce d.hold d.account charge kg else s.dropHold d.hold
  let s := s.writeRecord (.ice (s.chuteNo a) d.account d.ordered d.granted kg charge cause (s.flagsOf d.account))
  match s.chuteAt a with
  | none => s
  | some (_, c) => s.setChute a { c with job := none }

/-- A dispense ends with a cause: R110 whole, with ANSWER ENDED and the arbiter's decision. -/
def State.endDispense (s : State) (a : Nat) (d : Dispense) (kg : Nat) (cause : IceCause) : State :=
  ((s.closeDispense a d kg cause).placeCommand a (.answerEnded cause kg)).arbiterDecide

/-! ## Requests (R99, R100) -/

/-- The ice price of an account's kind (R94). -/
def State.icePrice (s : State) (a : Account) : Nat := if a.kind == .boat then s.par.iceBoats else s.par.iceBuyers

/-- The answer of the request checks 1 to 6 in order, or the granted quantity (Table 5-3). The flag tells that the
refusal is for want of a record claim. -/
def State.iceCheck (s : State) (c : Chute) (account ordered : Nat) : Except (AnswerCode × Bool) (Account × Nat) :=
  if c.job.isSome then .error (.busy, false)
  else
    match if account = 0 then none else s.account account with
    | none => .error (.notFound, false)
    | some acct =>
      if acct.state == .stopped then .error (.stopped, false)
      else if ordered = 0 || 10000 < ordered then .error (.count, false)
      else if s.holdsFull then .error (.full, false)
      else if !(s.canClaim 1) then .error (.full, true)
      else
        let g := grantedIce ordered (s.icePrice acct) acct.available
        if g = 0 then .error (.credit, false) else .ok (acct, g)

/-- An accepted request: claim, hold, dispense, REQUESTED, ANSWER GRANTED, latch list, decision (R100). The latch
order counts the acceptances since power-on from 0 and never wraps: DESIGN CHOICE (log 38). -/
def State.acceptIce (s : State) (a : Nat) (cfg : ChuteCfg) (c : Chute) (acct : Account) (ordered g : Nat) : State :=
  let price := s.icePrice acct
  let id := s.newHoldId
  let waitMs := s.par.iceWait * 1000
  let d : Dispense :=
    { state := .requested, account := acct.number, ordered := ordered, granted := g, price := price, hold := id,
      cls := cfg.cls, runLevel := cfg.runLevel, requested := s.clock, latchOrder := s.ice.nextLatch, started := false,
      delivered := 0, current := 0, suspendCause := none, pendingOutcome := none, deadline := s.clock.later waitMs,
      wait := some (Timer.start waitMs) }
  let s := (s.takeClaims 1).addHold acct.number (g * price) (.chute a)
  let s := s.setIce { s.ice with nextLatch := s.ice.nextLatch + 1 }
  let s := (s.setChute a { c with job := some d }).placeCommand a (.answerGranted g)
  (s.latchChute a d).arbiterDecide

/-- A REQUEST item (R99, R100). -/
def State.iceRequest (s : State) (a account ordered : Nat) : State :=
  match s.chuteAt a with
  | none => s
  | some (cfg, c) =>
    match s.iceCheck c account ordered with
    | .error (code, forClaim) =>
      let s := if forClaim then s.latch .recordsFull (.station a) else s
      s.placeCommand a (.answer code)
    | .ok (acct, g) => s.acceptIce a cfg c acct ordered g

/-! ## Run reports (R104, R106 to R108) -/

/-- The dispense after a run is over goes on as Table 5-5 gives, the screw freed; the arbiter then decides (R108). -/
def State.afterRun (s : State) (a : Nat) (d : Dispense) : State :=
  let full := d.granted ≤ d.delivered
  let ended := s.endDispense a d d.delivered (if full then .done else .stoppedByChute)
  match d.state, d.pendingOutcome with
  | .ending, some (.suspend cause) =>
    if full then ended
    else
      let d' := { d with state := .suspended, suspendCause := some cause, pendingOutcome := none }
      (((s.modJob a (fun _ => d')).latchChute a d').freeScrew a).arbiterDecide
  | _, _ => ended

/-- An end of run with the kilograms reported (R107): a falling figure leaves the figure held and latches
STATION_FAULT. The 0 kg of a run that a foreign tag in ENDING shows never began is taken by the same rule, so a
current-run figure above 0 stands and STATION_FAULT is latched: DESIGN CHOICE (log 23). -/
def State.endRun (s : State) (a : Nat) (d : Dispense) (kg : Nat) : State :=
  let s := if kg < d.current then s.latch .stationFault (.chute (s.chuteNo a)) else s
  let d' := { d with delivered := d.delivered + max kg d.current, current := 0 }
  (s.modJob a (fun _ => d')).afterRun a d'

/-- A progress report (R106). -/
def State.progress (s : State) (a : Nat) (d : Dispense) (kg : Nat) : State :=
  if kg < d.current then s.latch .stationFault (.chute (s.chuteNo a))
  else s.modJob a (fun d => { d with current := kg })

/-- A run report taken by the chute's state (R104, R106, R107). -/
def State.runReport (s : State) (a tag : Nat) (st : RunStatus) (kg : Nat) : State :=
  match s.chuteAt a with
  | none => s
  | some (_, c) =>
    match c.job with
    | none => s
    | some d =>
      match d.state with
      | .running =>
        if tag = c.tag then
          match st with
          | .active => s.progress a d kg
          | .ended => s.endRun a d kg
          | .none => s
        else if s.waits a QuayCommand.isStart then s
        else s.placeCommand a (.start c.tag (d.granted - d.delivered))
      | .ending =>
        if tag = c.tag then
          match st with
          | .active => s.progress a d kg
          | .ended => s.endRun a d kg
          | .none => s
        else if s.waits a QuayCommand.isStart then s
        else s.endRun a d 0
      | .requested => s
      | .suspended => s

/-- The stop button (Table 5-6). -/
def State.stopButton (s : State) (a : Nat) : State :=
  match s.chuteAt a with
  | none => s
  | some (_, c) =>
    match c.job with
    | none => s.placeCommand a (.answer .noDispense)
    | some d =>
      match d.state with
      | .requested => s.endDispense a d 0 .cancelled
      | .running =>
        (s.modJob a (fun d => { d with state := .ending, pendingOutcome := some .end_ })).placeCommand a (.stop c.tag)
      | .ending => s.modJob a (fun d => { d with pendingOutcome := some .end_ })
      | .suspended => s.endDispense a d d.delivered .stoppedByChute

/-! ## Grant (R103, R104) -/

/-- The best chute of the latch list above the effective floor: the first among those of the highest class (R103). -/
def State.bestLatched (s : State) : List Nat → Option (Nat × Dispense)
  | [] => none
  | a :: rest =>
    match s.jobAt a with
    | none => s.bestLatched rest
    | some d =>
      if d.cls ≤ s.ice.effFloor then s.bestLatched rest
      else
        match s.bestLatched rest with
        | none => some (a, d)
        | some (b, e) => if d.cls < e.cls then some (b, e) else some (a, d)

/-- The next run tag: on to 1 after 255 (R104, R128). -/
def nextTag (t : Nat) : Nat := if t < 255 then t + 1 else 1

/-- A grant: the run tag, START, the dispense RUNNING and the screw with it (R104). -/
def State.grant (s : State) (a : Nat) (d : Dispense) : State :=
  match s.chuteAt a with
  | none => s
  | some (_, c) =>
    let tag := nextTag c.tag
    let d' := { d with state := .running, started := true, current := 0, wait := none, suspendCause := none }
    let s := (s.unlatchChute a).setChute a { c with tag := tag, job := some d' }
    (s.placeCommand a (.start tag (d.granted - d.delivered))).setScrew (.running a)

/-- The account of a dispense is STOPPED. -/
def State.accountStopped (s : State) (n : Nat) : Bool := (s.account n).any (fun a => a.state == .stopped)

/-- The arbiter's decision in IDLE: a grant, or the cancelling of a never-started dispense of a STOPPED account and the
decision again at once; `n` bounds the cancellings (R103, R104, log 19). -/
def State.grantBest : Nat → State → State
  | 0, s => s
  | n + 1, s =>
    if s.ice.screw == .idle && s.arbiterWorks then
      match s.bestLatched s.ice.latch with
      | none => s
      | some (a, d) =>
        if !d.started && s.accountStopped d.account then State.grantBest n (s.endDispense a d 0 .stopped)
        else s.grant a d
    else s

/-! ## The bin (R113, R114) -/

/-- The subject of a notice about the plant: the ICEPLANT address, or none where the station is gone (Table 11-1). -/
def State.plantSubject (s : State) : Subject :=
  match s.plantAddr with
  | none => .none
  | some a => .station a

/-- The chute of a screw that serves one. -/
def Screw.served : Screw → Option Nat
  | .running a => some a
  | .switching a => some a
  | .idle => none
  | .dry => none

/-- The bin becomes empty: DRY from any state, BIN_EMPTY, a running chute stopped with SUSPEND DRY (R114). A bin that
was empty already stays so without a notice (R193). -/
def State.binEmpties (s : State) (subj : Subject) : State :=
  if s.ice.screw == .dry then s
  else
    let served := s.ice.screw
    let s := (s.setScrew .dry).latch .binEmpty subj
    match served with
    | .running a =>
      match s.chuteAt a with
      | some (_, c) =>
        match c.job with
        | some d =>
          if d.state == .running then
            (s.modJob a (fun d => { d with state := .ending, pendingOutcome := some (.suspend .dry) })).placeCommand a
              (.stop c.tag)
          else s
        | none => s
      | none => s
    | _ => s

/-- The plant becomes unknown: level and EMPTY flag absent, the bin empty (R114). -/
def State.plantUnknown (s : State) (subj : Subject) : State :=
  (s.setIce { s.ice with level := none, emptyFlag := none }).binEmpties subj

/-- The chute in ENDING, if there is one, with its dispense. -/
def State.endingChute (s : State) : Option (Nat × Dispense) :=
  (s.stations.findSome? (fun x =>
    match x.2.device with
    | .chute _ c => match c.job with
      | some d => if d.state == .ending then some (x.1, d) else none
      | none => none
    | _ => none))

/-- The screw leaves DRY (R114). -/
def State.leaveDry (s : State) : State :=
  match s.endingChute with
  | some (a, d) => if d.pendingOutcome == some .end_ then s.setScrew (.running a) else s.setScrew (.switching a)
  | none => (s.setScrew .idle).arbiterDecide

/-- A bin reading (R113, R114): LOW from the marks as they stand, the effective floor, then empty or not, and at last
the arbiter's decision on a changed floor: a reading that ends LOW and carries EMPTY dries the screw before the arbiter
decides (log 33). -/
def State.binReading (s : State) (a rawLevel : Nat) (empty : Bool) : State :=
  let level := min 100 rawLevel
  let before := s.ice.effFloor
  let low := if level < s.par.lowMark then true else if s.par.resumeMark ≤ level then false else s.ice.low
  let becomesLow := low && !s.ice.low
  let s := s.setIce { s.ice with level := some level, emptyFlag := some empty, low := low, reserve := s.par.reserveLevel }
  let s := if becomesLow then s.latch .binLow (.station a) else s
  let s := if empty || level == 0 then s.binEmpties (.station a) else if s.ice.screw == .dry then s.leaveDry else s
  if s.ice.effFloor = before then s else s.arbiterDecide

/-! ## Chute replies and losses (R98, R115, R116) -/

/-- A chute station goes OFFLINE: its dispense ends LOST, charged for what was last accepted (R115). -/
def State.chuteLost (s : State) (a : Nat) : State :=
  match s.jobAt a with
  | none => s
  | some d => s.endDispense a d (d.delivered + d.current) .lost

/-- RESTART at one chute: the dispense ends RESTART without an answer (R118). -/
def State.restartChute (s : State) (a : Nat) : State :=
  match s.jobAt a with
  | none => s
  | some d => s.closeDispense a d (d.delivered + d.current) .restart

end Sys2Proof.Machine
end

