-- ==== Sys2Proof/Machine/Gates.lean ====
section
/-! DEFINITION. The crate pool's gates: sessions, counts and closes (chapter 6). -/

namespace Sys2Proof.Machine

/-- The bound of a store and of a shortfall (Table 6-1). -/
def storeBound : Nat := 2000000000

/-- A store and shortfall after an OUT close of `n`, each held at its bound with the rest in the crate residue
(Table 6-6, R120). -/
def CrateType.issue (c : CrateType) (n : Nat) : CrateType :=
  if n ≤ c.store then { c with store := c.store - n }
  else
    let d := c.shortfall + (n - c.store)
    { c with store := 0, shortfall := min storeBound d, residue := c.residue - ((d - min storeBound d : Nat) : Int) }

/-- A store after an IN close of `n` (Table 6-6, R120). -/
def CrateType.takeBack (c : CrateType) (n : Nat) : CrateType :=
  let x := c.store + n
  { c with store := min storeBound x, residue := c.residue + ((x - min storeBound x : Nat) : Int) }

/-- The store of a crate type; 0 where the type has no entry. -/
def State.storeOf (s : State) (t : Nat) : Nat :=
  match s.crateTypes.find t with
  | none => 0
  | some c => c.store

/-- The postings and counts of a close (Table 6-6). -/
def State.postClose (s : State) (x : Session) (deposit : Nat) : State :=
  match x.dir with
  | .out =>
    let short := s.storeOf x.ctype < x.count
    let s := { s with crateTypes := s.crateTypes.modify x.ctype (fun c => c.issue x.count) }
    let s := s.addCrates x.account x.ctype (x.count : Int)
    let s := (s.post x.account 0 (x.count * deposit)).stopIfShort x.account
    if short then s.latch .crateShortfall (.type x.ctype) else s
  | .into =>
    let s := { s with crateTypes := s.crateTypes.modify x.ctype (fun c => c.takeBack x.count) }
    let s := s.addCrates x.account x.ctype (-(x.count : Int))
    s.post 0 x.account (x.count * deposit)

/-- A close up to its command: postings, CRATE record, gate IDLE keeping its tag (R133). -/
def State.closeSession (s : State) (a : Nat) (g : Gate) (x : Session) (cause : CrateCause) : State :=
  let deposit := s.depositOf x.ctype
  let s := s.postClose x deposit
  let s := s.writeRecord (.crate (s.gateNo a) x.account x.ctype x.dir x.count (x.count * deposit) cause)
  s.setGate a { g with session := none, lastClose := some { count := x.count, cause := cause } }

/-- A close whole, with CLOSED (R133). -/
def State.closeGate (s : State) (a : Nat) (g : Gate) (x : Session) (cause : CrateCause) : State :=
  (s.closeSession a g x cause).placeCommand a (.closed g.tag x.count cause)

/-! ## OPEN and CLOSE items (R127, R128, R131) -/

/-- The direction a keyed code names (Table 12-3); another code names none (R201). -/
def directionOf : Nat → Option Direction
  | 1 => some .into
  | 2 => some .out
  | _ => none

/-- The gate allows a direction (Table 6-5, check 4). -/
def GateDirection.allows : GateDirection → Direction → Bool
  | .into, .into => true
  | .into, .out => false
  | .out, .into => false
  | .out, .out => true
  | .both, _ => true

/-- The checks of Table 6-5 in order: the answer of the first that fails, or the direction of the session. The flag
tells that the refusal is for want of a record claim. -/
def State.gateCheck (s : State) (dir : GateDirection) (g : Gate) (account ctype keyed : Nat) :
    Except (AnswerCode × Bool) Direction :=
  if g.session.isSome then .error (.busy, false)
  else
    match if account = 0 then none else s.account account with
    | none => .error (.notFound, false)
    | some acct =>
      if (s.crateTypes.find ctype).isNone then .error (.crateType, false)
      else
        match directionOf keyed with
        | none => .error (.direction, false)
        | some d =>
          if !(dir.allows d) then .error (.direction, false)
          else if d == .out && acct.state == .stopped then .error (.stopped, false)
          else if !(s.canClaim 1) then .error (.full, true)
          else .ok d

/-- An OPEN item (R127, R128). -/
def State.gateOpen (s : State) (a account ctype keyed : Nat) : State :=
  match s.gateAt a with
  | none => s
  | some (dir, g) =>
    match s.gateCheck dir g account ctype keyed with
    | .error (code, forClaim) =>
      let s := if forClaim then s.latch .recordsFull (.station a) else s
      s.placeCommand a (.answer code)
    | .ok d =>
      let tag := nextTag g.tag
      let idleMs := s.par.gateIdle * 1000
      let x : Session :=
        { account := account, ctype := ctype, dir := d, count := 0, clamped := false, opened := s.clock,
          deadline := s.clock.later idleMs, idle := Timer.start idleMs }
      ((s.takeClaims 1).setGate a { g with tag := tag, session := some x }).placeCommand a (.answerOpened tag)

/-- A CLOSE item (R131). -/
def State.gateCloseItem (s : State) (a : Nat) : State :=
  match s.gateAt a with
  | none => s
  | some (_, g) =>
    match g.session with
    | none => s.placeCommand a (.answer .noSession)
    | some x => s.closeGate a g x .keypad

/-! ## Count reports and faults (R129, R130, R134) -/

/-- A session whose idle timer starts again (R125, R129, R135). Its deadline stamp moves with every start of the
timer, RESUME POLL and LISTEN to BROKEN among them, which Table 6-4 does not list: DESIGN CHOICE (log 36). -/
def Session.restartIdle (x : Session) (now : Stamp) (idleMs : Nat) : Session :=
  { x with idle := Timer.start idleMs, deadline := now.later idleMs }

/-- An accepted count report (R129): clamp, rise, fall. -/
def State.acceptCount (s : State) (a : Nat) (g : Gate) (x : Session) (raw : Nat) : State :=
  let count := min 9999 raw
  let clampNow := 9999 < raw && !x.clamped
  let s := if clampNow then s.latch .gateFault (.station a) else s
  let x := { x with clamped := x.clamped || 9999 < raw }
  if count < x.count then (s.latch .gateFault (.station a)).closeGate a g x .fault
  else if x.count < count then
    s.setGate a { g with session := some ({ x with count := count }.restartIdle s.clock (s.par.gateIdle * 1000)) }
  else s.setGate a { g with session := some x }

/-- The count report and the sensor fault flag of a gate reply (R126, R129, R130, R134). A reply in IDLE that carries
the flag is also taken as a report, first: a lost CLOSED it shows is placed again beside GATE_FAULT, which is the
model's choice between R130 and R134 (log 34). -/
def State.gateReport (s : State) (a tag : Nat) (barrierOpen : Bool) (count : Nat) (sensor : Bool) : State :=
  match s.gateAt a with
  | none => s
  | some (_, g0) =>
    let g := { g0 with report := some { tag := tag, barrierOpen := barrierOpen, count := count } }
    let s := s.setGate a g
    match g.session with
    | some x =>
      if sensor then (s.latch .gateFault (.station a)).closeGate a g x .fault
      else if tag = g.tag then s.acceptCount a g x count
      else if s.waits a QuayCommand.isOpened then s
      else s.placeCommand a (.answerOpened g.tag)
    | none =>
      let s :=
        match g.lastClose with
        | some l =>
          if tag = g.tag && tag != 0 && barrierOpen && !(s.waits a QuayCommand.isClosed) then
            s.placeCommand a (.closed g.tag l.count l.cause)
          else s
        | none => s
      if sensor then s.latch .gateFault (.station a) else s

/-! ## Loss, idle timers, RESTART (R132, R135) -/

/-- A gate station goes OFFLINE: its session closes LOST (R132). -/
def State.gateLost (s : State) (a : Nat) : State :=
  match s.gateAt a with
  | none => s
  | some (_, g) =>
    match g.session with
    | none => s
    | some x => s.closeGate a g x .lost

/-- RESTART at one gate: the session closes RESTART without CLOSED (R135). -/
def State.restartGate (s : State) (a : Nat) : State :=
  match s.gateAt a with
  | none => s
  | some (_, g) =>
    match g.session with
    | none => s
    | some x => s.closeSession a g x .restart

def Station.mapSession (f : Session → Session) (st : Station) : Station :=
  match st.device with
  | .gate dir g => { st with device := .gate dir { g with session := g.session.map f } }
  | _ => st

/-- The idle timers of all open sessions start again from the gate idle time, and their deadline stamps with them
(R135, R164, log 36). -/
def State.restartIdleTimers (s : State) : State :=
  { s with stations := s.stations.map (fun x => (x.1, x.2.mapSession (fun y => y.restartIdle s.clock (s.par.gateIdle * 1000)))) }

end Sys2Proof.Machine
end

