-- ==== Sys2Proof/Machine/Weigh.lean ====
section
/-! DEFINITION. The weigh channels: stability tracker, drafts, capture and landing (chapter 2). -/

namespace Sys2Proof.Machine

/-! ## Stability tracker (R26 to R29) -/

/-- A reset tracker (R29). -/
def Tracker.reset : Tracker := { state := .moving, counter := 0, previous := none, held := none }

/-- A reading without overload is quiet (R26). -/
def Tracker.quiet (t : Tracker) (band : Nat) (gross : Int) (motion : Bool) : Bool :=
  match t.previous with
  | none => false
  | some p => !motion && (gross - p).natAbs ≤ band

/-- One reading taken (Table 2-1). -/
def Tracker.read (t : Tracker) (cfg : WeighCfg) (now : Stamp) (gross : Int) (motion overload : Bool) : Tracker :=
  if overload then { state := .fault, counter := 0, previous := none, held := none }
  else if t.quiet cfg.band gross motion then
    match t.state with
    | .stable => { t with previous := some gross }
    | _ =>
      if cfg.stability ≤ t.counter + 1 then
        { state := .stable, counter := t.counter + 1, previous := some gross, held := some { gross := gross, at_ := now } }
      else { state := .moving, counter := t.counter + 1, previous := some gross, held := none }
  else { state := .moving, counter := 0, previous := some gross, held := none }

def State.setTracker (s : State) (a : Nat) (t : Tracker) : State :=
  match s.weighAt a with
  | none => s
  | some (_, ch) => s.setChannel a { ch with tracker := t }

/-- The trackers of all channels reset, at the start of a roll-call cycle (R29, R160). -/
def State.resetTrackers (s : State) : State :=
  { s with stations := s.stations.map (fun x =>
      match x.2.device with
      | .weigh cfg ch => (x.1, { x.2 with device := .weigh cfg { ch with tracker := Tracker.reset } })
      | _ => x) }

/-! ## Drafts (R31, R32) -/

/-- The draft checks in order (Table 2-3): the answer of the first that fails, or what acceptance copies. The flag
tells that the refusal is for want of a record claim. -/
def State.draftCheck (s : State) (ch : Channel) (account species ctype count : Nat) :
    Except (AnswerCode × Bool) (Species × CrateType) :=
  if ch.state != .idle then .error (.busy, false)
  else
    match s.account account with
    | none => .error (.notFound, false)
    | some acct =>
      if acct.kind != .boat then .error (.kind, false)
      else
        match s.speciesOf species with
        | none => .error (.species, false)
        | some e =>
          match s.crateTypes.find ctype with
          | none => .error (.crateType, false)
          | some c =>
            if count = 0 || 200 < count then .error (.count, false)
            else if acct.crateBalance ctype - (count : Int) < -((acct.overdraft.getD 0 : Nat) : Int) then
              .error (.crates, false)
            else if !s.lotRoom then .error (.full, false)
            else if !(s.canClaim 1) then .error (.full, true)
            else .ok (e, c)

/-! ## Capture and landing (R34 to R38) -/

/-- The figures of a capture (R35). -/
structure CaptureFigures where
  tare : Nat
  fishAndIce : Int
  allowance : Nat
  net : Nat
  deriving DecidableEq, Repr

/-- Tare, weight of fish and ice, allowance and net of a held gross (R35). -/
def Draft.figures (d : Draft) (gross : Int) : CaptureFigures :=
  let t := d.count * d.tare
  let p : Int := gross - (t : Int)
  let a := p.toNat * d.m / d.n
  let rest := p.toNat - a
  { tare := t, fishAndIce := p, allowance := a, net := rest / d.netStep * d.netStep }

/-- A draft ends without a lot: reservation and claim given back, channel to a state (section 2.7). -/
def State.endDraft (s : State) (a : Nat) (ch : Channel) (st : ChannelState) : State :=
  (s.unreserveLot.releaseClaims 1).setChannel a { ch with state := st }

/-- The lot a capture lands (Table 2-5). -/
def Draft.lot (d : Draft) (gross : Int) (f : CaptureFigures) (now : Stamp) (a : Nat) : Lot :=
  { boat := d.boat, species := d.species, ring := d.ring, ctype := d.ctype, crates := d.count, remaining := d.count,
    gross := gross, tare := f.tare, allowance := f.allowance, net := f.net, netRemaining := f.net, soldNet := 0,
    soldCrates := 0, reserve := none, offers := 0, landed := now, station := a, state := .queued }

/-- The landing: lot, queue, the boat's crates, deposit and day total, LANDING record, RESULT CAPTURED (R36 to R38). -/
def State.land (s : State) (a : Nat) (ch : Channel) (d : Draft) (gross : Int) (f : CaptureFigures) : State :=
  let n := s.newLotNumber
  let s := { s.unreserveLot with lotStore := { s.unreserveLot.lotStore with
      lots := s.lotStore.lots.set n (d.lot gross f s.clock a), next := nextNumber n } }
  let s := s.modRing d.ring (fun x => x.enqueue n)
  let s := s.addCrates d.boat d.ctype (-(d.count : Int))
  let s := s.post 0 d.boat (d.deposit * d.count)
  let s := s.addTotals d.boat (fun t => { t with landed := addTotal t.landed f.net })
  let s := s.writeRecord (.landing n d.boat d.species d.ctype d.count gross f.tare f.allowance f.net a)
  (s.setChannel a { ch with state := .idle }).placeCommand a (.resultCaptured n f.net)

/-- A capture of the held reading (R35, R36). -/
def State.capture (s : State) (a : Nat) (cfg : WeighCfg) (ch : Channel) (d : Draft) (gross : Int) : State :=
  let f := d.figures gross
  if (cfg.capacity : Int) < gross then (s.endDraft a ch .idle).placeCommand a (.resultGross .overload gross)
  else if f.fishAndIce ≤ 0 || f.net < d.count then
    (s.endDraft a ch .idle).placeCommand a (.resultGross .underweight gross)
  else s.land a ch d gross f

/-- A capture is made when the tracker is STABLE in CAPTURE (R34). -/
def State.captureIfStable (s : State) (a : Nat) : State :=
  match s.weighAt a with
  | none => s
  | some (cfg, ch) =>
    match ch.state, ch.tracker.state, ch.tracker.held with
    | .capture d, .stable, some h => s.capture a cfg ch d h.gross
    | _, _, _ => s

/-- An accepted draft (R32): reservation, claim, copies, capture timer, ANSWER ACCEPTED, and the capture at once where
the tracker is STABLE. -/
def State.acceptDraft (s : State) (a : Nat) (ch : Channel) (account species ctype count : Nat) (e : Species)
    (c : CrateType) : State :=
  let ms := s.par.captureTimeout * 1000
  let d : Draft :=
    { boat := account, species := species, ring := e.ring, m := e.m, n := e.n, ctype := ctype, tare := c.tare,
      deposit := c.deposit, count := count, netStep := s.par.netStep, deadline := s.clock.later ms,
      accepted := s.clock, timer := Timer.start ms }
  let s := (s.reserveLot.takeClaims 1).setChannel a { ch with state := .capture d }
  (s.placeCommand a (.answer .accepted)).captureIfStable a

/-- A DRAFT item (R31, R32). -/
def State.draftItem (s : State) (a account species ctype count : Nat) : State :=
  match s.weighAt a with
  | none => s
  | some (_, ch) =>
    match s.draftCheck ch account species ctype count with
    | .error (code, forClaim) =>
      let s := if forClaim then s.latch .recordsFull (.station a) else s
      s.placeCommand a (.answer code)
    | .ok (e, c) => s.acceptDraft a ch account species ctype count e c

/-- A CANCEL item (R39). -/
def State.cancelItem (s : State) (a : Nat) : State :=
  match s.weighAt a with
  | none => s
  | some (_, ch) =>
    match ch.state with
    | .capture _ => (s.endDraft a ch .idle).placeCommand a (.result .cancelled)
    | _ => s.placeCommand a (.answer .noDraft)

/-- A reading taken: the tracker, and the capture it may complete (R25, R34). -/
def State.weighReading (s : State) (a : Nat) (gross : Int) (motion overload : Bool) : State :=
  match s.weighAt a with
  | none => s
  | some (cfg, ch) =>
    (s.setChannel a { ch with tracker := ch.tracker.read cfg s.clock gross motion overload }).captureIfStable a

/-- The capture timer's expiry (R40). -/
def State.draftTimeout (s : State) (a : Nat) : State :=
  match s.weighAt a with
  | none => s
  | some (_, ch) =>
    match ch.state with
    | .capture d => if d.timer.due then (s.endDraft a ch .idle).placeCommand a (.result .timeout) else s
    | _ => s

/-- A WEIGH station goes OFFLINE: any draft ends LOST, the tracker is reset, the channel OFFLINE (R41). -/
def State.channelLost (s : State) (a : Nat) : State :=
  match s.weighAt a with
  | none => s
  | some (_, ch) =>
    let ch' := { ch with tracker := Tracker.reset }
    match ch.state with
    | .capture _ => (s.endDraft a ch' .offline).placeCommand a (.result .lost)
    | _ => s.setChannel a { ch' with state := .offline }

/-- A WEIGH station is ONLINE: a channel in OFFLINE enters IDLE (R30). -/
def State.channelOnline (s : State) (a : Nat) : State :=
  match s.weighAt a with
  | none => s
  | some (_, ch) => if ch.state == .offline then s.setChannel a { ch with state := .idle } else s

/-- RESTART at one channel: the draft ends without a RESULT, the tracker is reset (R45). -/
def State.restartChannel (s : State) (a : Nat) : State :=
  match s.weighAt a with
  | none => s
  | some (_, ch) =>
    let ch' := { ch with tracker := Tracker.reset }
    match ch.state with
    | .capture _ => s.endDraft a ch' .idle
    | _ => s.setChannel a ch'

end Sys2Proof.Machine
end

