-- ==== Sys2Proof/Machine/Poller.lean ====
section
/-! DEFINITION. The quay poller: polls, replies, misses, liveness, LISTEN and BROKEN (sections 8.4 to 8.8). -/

namespace Sys2Proof.Machine

def State.setPoller (s : State) (p : Poller) : State := { s with poller := p }

/-! ## Polls (R156, R157) -/

/-- The bytes of a command in a poll (Table 12-3). -/
def IceCause.code : IceCause → Nat
  | .done => 1 | .stoppedByChute => 2 | .cancelled => 3 | .timeout => 4 | .stopped => 5 | .lost => 6 | .restart => 7
def CrateCause.code : CrateCause → Nat
  | .keypad => 1 | .idle => 2 | .fault => 3 | .lost => 4 | .restart => 5

def QuayCommand.bytes : QuayCommand → List Byte
  | .answer c => [1] ++ be 1 c.code
  | .answerGranted kg => [1] ++ be 1 AnswerCode.granted.code ++ be 2 kg
  | .answerOpened t => [1] ++ be 1 AnswerCode.opened.code ++ be 1 t
  | .answerEnded c kg => [1] ++ be 1 AnswerCode.ended.code ++ be 1 c.code ++ be 3 kg
  | .result c => [2] ++ be 1 c.code
  | .resultCaptured lot net => [2] ++ be 1 AnswerCode.captured.code ++ be 2 lot ++ be 4 net
  | .resultGross c g => [2] ++ be 1 c.code ++ beInt 3 g
  | .start t kg => [3] ++ be 1 t ++ be 2 kg
  | .stop t => [4] ++ be 1 t
  | .closed t n c => [5] ++ be 1 t ++ be 2 n ++ be 1 c.code
  | .relay k p => [6, k] ++ p

/-- A POLL frame with the command it carries, if any. -/
def pollFrame (a : Nat) (c : Option QuayCommand) : Frame :=
  { dst := BitVec.ofNat 8 a, src := 0, kind := 0x01, payload := (c.map QuayCommand.bytes).getD [] }

/-- The STOP-ALL frame (R166). -/
def stopAllFrame : Frame := { dst := 31, src := 0, kind := 0x03, payload := [] }

/-- The lowest enabled address above one. -/
def State.nextEnabled (s : State) (above : Nat) : Option Nat :=
  (s.stations.find? (fun x => above < x.1 && x.2.enabled)).map (·.1)

/-- The poll of a station is placed in the transmit stage, carrying the oldest command outside a roll-call. While the
stage is full the next poll stays due after the address last polled, and its station is chosen when the stage is free
(R151, R156, R157). -/
def State.placePoll (s : State) (last a : Nat) (rollCall : Bool) : State :=
  if s.quay.stage.isSome then s.setPoller { s.poller with poll := some { station := last, phase := .due } }
  else
    let c := if rollCall then none else (s.station a).bind (·.commands.head?)
    let phase := if s.quay.onLine.isNone then PollPhase.onLine else .staged
    let s := s.modStation a (fun st => { st with carried := c.isSome })
    { s with quay := s.quay.place (pollFrame a c),
             poller := { s.poller with poll := some { station := a, phase := phase } } }

/-- A cycle starts; without an enabled station it ends as it starts (R156). A roll-call resets the trackers (R160). -/
def State.beginCycle (s : State) (rollCall : Bool) : State :=
  let s := if rollCall then s.resetTrackers else s
  match s.nextEnabled 0 with
  | some a => (s.setPoller { s.poller with cycle := some rollCall }).placePoll 0 a rollCall
  | none => s.setPoller { s.poller with cycle := none, poll := none }

/-- The poller goes on from an address: the next poll, or the cycle's end and the start that is due (R156). -/
def State.pollNext (s : State) (last : Nat) : State :=
  match s.nextEnabled last with
  | some a => s.placePoll last a (s.poller.cycle.getD false)
  | none =>
    let due := s.poller.startDue
    let s := s.setPoller { s.poller with cycle := none, poll := none, startDue := false }
    if due then s.beginCycle false else s

/-- POLLING entered: the cycle timer from 0 and the first cycle, a roll-call (R156, R160). -/
def State.enterPolling (s : State) : State :=
  (s.setPoller { state := .polling, cycleTimer := some (Timer.start s.par.cyclePeriod), cycle := none,
                 startDue := false, poll := none, breakTimer := none }).beginCycle true

/-- No poll carries a command any more: commands of an abandoned poll stay in their lists (R162). -/
def State.uncarry (s : State) : State :=
  { s with stations := s.stations.map (fun x => (x.1, { x.2 with carried := false })) }

/-- POLLING left: the wait abandoned without a miss, a poll in the stage withdrawn, cycle and timers ended, another
state entered (R162, R165). -/
def State.leavePolling (s : State) (st : PollerState) (breakTimer : Option Timer) : State :=
  let staged := s.poller.poll.any (fun p => p.phase == .staged)
  let s := s.uncarry
  let s := if staged then { s with quay := { s.quay with stage := none } } else s
  s.setPoller { state := st, cycleTimer := none, cycle := none, startDue := false, poll := none, breakTimer := breakTimer }

/-! ## Liveness (R157, R158) -/

/-- OFFLINE reported to the station's owner (R158). -/
def State.reportOffline (s : State) (a : Nat) : State :=
  match s.station a with
  | none => s
  | some st =>
    match st.device with
    | .weigh _ _ => s.channelLost a
    | .chute _ _ => s.chuteLost a
    | .gate _ _ => s.gateLost a
    | .icePlant => s.plantUnknown (.station a)

/-- A station becomes OFFLINE: list cleared, STATION_LOST, its owner told (R158). -/
def State.stationLost (s : State) (a : Nat) : State :=
  ((s.modStation a (fun st => { st with live := .offline, commands := [], carried := false })).latch .stationLost
    (.station a)).reportOffline a

/-- A miss of an enabled station (R157, R158); a station disabled or cleared meanwhile counts none (log 12). -/
def State.miss (s : State) (a : Nat) : State :=
  match s.station a with
  | none => s
  | some st =>
    if st.enabled then
      let m := min 15 (st.misses + 1)
      let s := s.modStation a (fun st => { st with misses := m, carried := false })
      if st.live == .online && s.par.missLimit ≤ m then s.stationLost a else s
    else s

/-- The station whose reply is awaited (R157). -/
def State.awaited (s : State) : Option Nat :=
  match s.poller.state, s.poller.poll with
  | .polling, some p => match p.phase with
    | .awaiting _ => some p.station
    | _ => none
  | _, _ => none

/-- The subject of QUAY_ERRORS: the station awaited, or none (R150). -/
def State.awaitedSubject (s : State) : Subject :=
  match s.awaited with
  | none => .none
  | some a => .station a

/-- The reply wait in progress ends as a miss, and the poller goes on (R157). -/
def State.waitMissed (s : State) : State :=
  match s.awaited with
  | none => s
  | some a => ((s.setPoller { s.poller with poll := none }).miss a).pollNext a

/-- A valid reply at the poller's record: miss count 0, last heard, and the carried command removed if it still stands
in the list (R157). -/
def Station.heard (st : Station) (now : Stamp) : Station :=
  { st with misses := 0, lastHeard := some now, age := 0, carried := false,
            commands := if st.carried then st.commands.drop 1 else st.commands }

/-- An OFFLINE station becomes ONLINE, its owner told (R158). -/
def State.nowOnline (s : State) (a : Nat) : State :=
  match s.station a with
  | none => s
  | some st =>
    if st.live == .offline then (s.modStation a (fun st => { st with live := .online })).channelOnline a else s

/-! ## Handing a reply to its owner (R25, R98, R126, R113) -/

/-- A reply handed to the station's owner. One heard in LISTEN brings no keypad item and no stop-button flag
(R43, R116, R135, R163). R130 says that a reply with the sensor fault flag taken in IDLE changes nothing else than the
latch, and R126 has the item of every reply judged after its report: an OPEN or CLOSE that such a reply carries is
judged (R134) and answered as any other, so an OPEN can open a session. DESIGN CHOICE (log 34). -/
def State.handReply (s : State) (a : Nat) (p : List Byte) (heard : Bool) : State :=
  match s.station a with
  | none => s
  | some st =>
    match st.device with
    | .weigh _ _ =>
      match readWeigh p with
      | none => s
      | some r =>
        let s := s.weighReading a r.gross r.motion r.overload
        if heard then s
        else
          match r.item with
          | .none => s
          | .draft account species ctype count => s.draftItem a account species ctype count
          | .cancel => s.cancelItem a
    | .chute _ _ =>
      match readChute p with
      | none => s
      | some r =>
        let s := match r.status with
          | none => s
          | some x => s.runReport a r.tag x r.kg
        if heard then s
        else
          let s := if r.stopButton then s.stopButton a else s
          match r.request with
          | none => s
          | some (account, ordered) => s.iceRequest a account ordered
    | .gate _ _ =>
      match readGate p with
      | none => s
      | some r =>
        let s := s.gateReport a r.tag r.barrierOpen r.count r.sensor
        if heard then s
        else
          match r.item with
          | .none => s
          | .open_ account ctype direction => s.gateOpen a account ctype direction
          | .close => s.gateCloseItem a
    | .icePlant =>
      match readPlant p with
      | none => s
      | some r => s.binReading a r.level r.empty

/-- A reply of a station that does not fit its layout (R201). -/
def State.malformed (s : State) (a : Nat) (p : List Byte) : Bool :=
  match s.station a with
  | none => false
  | some st => !(st.device.fits p)

/-- The valid reply of the polled station (R157, R158, R160), or a malformed one, which is a miss (R201). The reply's
arrival is the hall time at which the poller takes the frame (log 3). -/
def State.takeReply (s : State) (a : Nat) (p : List Byte) : State :=
  if s.malformed a p then (s.latch .quayErrors (.station a)).waitMissed
  else
    let rollCall := s.poller.cycle == some true
    let s := (s.setPoller { s.poller with poll := none }).modStation a (fun st => st.heard s.clock)
    let s := s.nowOnline a
    let s := if rollCall then s else s.handReply a p false
    s.pollNext a

/-- A reply heard in LISTEN: every one, whatever its length, sets the station's record and makes an OFFLINE station
ONLINE (R163), its arrival the hall time at which the poller takes the frame (log 3). A malformed one latches
QUAY_ERRORS, and its owner can take nothing from it (R201, log 11). -/
def State.hearReply (s : State) (a : Nat) (p : List Byte) : State :=
  let t := (s.modStation a (fun st => st.heard s.clock)).nowOnline a
  if s.malformed a p then t.latch .quayErrors (.station a) else t.handReply a p true

/-! ## What becomes of a frame of the quay line (R157, R162, R163) -/

/-- The poller's judgment of a frame. -/
inductive QuayVerdict where
  | reply (station : Nat)
  | foreign
  | heard (station : Nat)
  | discard
  deriving DecidableEq, Repr

/-- An enabled station of the table. -/
def State.enabledAt (s : State) (a : Nat) : Bool := (s.station a).any (·.enabled)

def State.quayVerdict (s : State) (f : Frame) : QuayVerdict :=
  let a := f.src.toNat
  if a = 0 then .discard
  else
    match s.poller.state with
    | .polling =>
      if f.kind == 0x02 then (if s.awaited == some a && s.enabledAt a then .reply a else .discard)
      else if f.kind == 0x01 || f.kind == 0x03 then .foreign
      else .discard
    | .listen => if f.kind == 0x02 && s.enabledAt a then .heard a else .discard
    | .off => .discard
    | .broken _ => .discard

/-- Frames at the front of the quay receive stage that the poller takes and discards leave it (R157, R162, log 28). -/
def State.purgeQuay (s : State) : State :=
  { s with quay := { s.quay with rx := s.quay.rx.dropWhile (fun f => s.quayVerdict f == .discard) } }

/-! ## LISTEN and BROKEN (R162 to R166) -/

/-- Every station's last heard set to now (R163, R165). -/
def State.hearAll (s : State) : State :=
  { s with stations := s.stations.map (fun x => (x.1, { x.2 with lastHeard := some s.clock, age := 0 })) }

/-- Another master: POLLING to LISTEN (R162). -/
def State.enterListen (s : State) (src : Nat) : State :=
  ((s.leavePolling .listen none).hearAll).latch .mastershipLost (.station src)

/-- The interval of hearing and of the break timer (R163, R165). -/
def State.missInterval (s : State) : Nat := s.par.missLimit * s.par.cyclePeriod

/-- A quay BREAK reported to the poller (R165): POLLING or LISTEN to BROKEN. Entering from LISTEN, the gates' idle
timers start again (R135). -/
def State.enterBroken (s : State) : State :=
  let t := some (Timer.start s.missInterval)
  match s.poller.state with
  | .polling => s.leavePolling (.broken .polling) t
  | .listen => (s.leavePolling (.broken .listen) t).restartIdleTimers
  | .off => s
  | .broken _ => s

/-- The end of a quay BREAK reported to the poller (R165). -/
def State.leaveBroken (s : State) : State :=
  match s.poller.state with
  | .broken .polling => s.enterPolling.arbiterDecide
  | .broken .listen => (s.setPoller { s.poller with state := .listen, breakTimer := none }).hearAll
  | _ => s

/-- The ONLINE stations, ascending. -/
def State.onlineAddrs (s : State) : List Nat := s.addrsWhere (fun st => st.live == .online)

/-- The break timer's expiry: every ONLINE station becomes OFFLINE, in ascending address (R165). -/
def State.breakTimedOut (s : State) : State :=
  let s := s.onlineAddrs.foldl State.stationLost s
  s.setPoller { s.poller with breakTimer := none }

/-- RESUME POLL: LISTEN to POLLING; the ice arbiter decides and the gates restart their idle timers (R164). -/
def State.resumePolling (s : State) : State := s.restartIdleTimers.enterPolling.arbiterDecide.purgeQuay

/-- RESTART at the poller: STOP-ALL unless OFF or BROKEN, OFF, lists cleared, miss counts and last heard reset
(R155, R166). -/
def State.restartPoller (s : State) : State :=
  let send := match s.poller.state with
    | .polling => true
    | .listen => true
    | .off => false
    | .broken _ => false
  let q := s.quay
  let q := if send then
      match q.onLine with
      | none => { q with onLine := some stopAllFrame, stage := none }
      | some _ => { q with stage := some stopAllFrame }
    else q
  { s with
    quay := { q with rx := [] }
    poller := Poller.reset
    stations := s.stations.map (fun x =>
      (x.1, { x.2 with misses := 0, commands := [], lastHeard := none, carried := false })) }

end Sys2Proof.Machine
end

