-- ==== Sys2Proof/Machine/Ports.lean ====
section
/-! DEFINITION. The line ports: the envelope and its check (R200), the judging of a frame (R150), the receive stages
(R149), BREAK and floor silence (R152, R153), the routing of stops (R168), the ticks of all timers (R199). -/

namespace Sys2Proof.Machine

/-! ## The envelope (R200) -/

/-- One bit of the cyclic code with polynomial x^16 + x^12 + x^5 + 1. -/
def crcBit (r : BitVec 16) : BitVec 16 := if r.msb then (r <<< 1) ^^^ 0x1021#16 else r <<< 1

/-- One byte, most significant bit first. -/
def crcByte (r : BitVec 16) (b : Byte) : BitVec 16 :=
  crcBit (crcBit (crcBit (crcBit (crcBit (crcBit (crcBit (crcBit (r ^^^ (b.setWidth 16 <<< 8)))))))))

/-- The check over the bytes from the destination through the payload; the register starts at all ones. -/
def crc (bs : List Byte) : BitVec 16 := bs.foldl crcByte 0xFFFF#16

/-- A byte that is sent escaped: F5, FA or F7. -/
def isReserved (b : Byte) : Bool := b == 0xF5 || b == 0xFA || b == 0xF7

/-- The escapes of a frame's bytes (R200). -/
def escape : List Byte → List Byte
  | [] => []
  | b :: bs => if isReserved b then 0xF7 :: (b ^^^ 0x20) :: escape bs else b :: escape bs

/-- The bytes between the flags with their escapes removed, and whether an escape is bad or a flag stands among them
(R150, R200). A flag byte among them is dropped, and check and length are judged on the bytes that remain: the model's
reading, log 15. -/
def unescape : List Byte → List Byte × Bool
  | [] => ([], false)
  | [b] => if isReserved b then ([], true) else ([b], false)
  | b :: c :: bs =>
    if b == 0xF7 then
      let (r, bad) := unescape bs
      ((c ^^^ 0x20) :: r, bad || !(isReserved (c ^^^ 0x20)))
    else if isReserved b then ((unescape (c :: bs)).1, true)
    else
      let (r, bad) := unescape (c :: bs)
      (b :: r, bad)

/-- A frame's bytes from the destination through the payload. -/
def frameBody (f : Frame) : List Byte := [f.dst, f.src, f.kind, BitVec.ofNat 8 f.payload.length] ++ f.payload

/-- What the port puts between the flags for a frame: body and check, escaped (R200). -/
def frameWire (f : Frame) : List Byte := escape (frameBody f ++ be 2 (crc (frameBody f)).toNat)

/-- The frame that unescaped bytes hold. -/
def frameOf (bs : List Byte) : Frame :=
  Frame.mk (bs.getD 0 0) (bs.getD 1 0) (bs.getD 2 0) ((bs.drop 4).take (bs.length - 6))

/-- The check received differs from the check computed (R150, R200). -/
def checkFails (bs : List Byte) : Bool :=
  (crc (bs.take (bs.length - 2))).toNat != beNat (bs.drop (bs.length - 2))

/-- The length byte differs from the number of payload bytes received, or more than 120 payload bytes are announced or
arrived (R150, R200). -/
def lengthFails (bs : List Byte) : Bool :=
  (bs.getD 3 0).toNat != bs.length - 6 || decide (120 < (bs.getD 3 0).toNat) || decide (120 < bs.length - 6)

/-- The four conditions of R150 on the bytes received. Fewer than six bytes cannot hold addresses, kind, length and
check: such a frame has condition F, has no check to judge, and is judged for its length where a length byte came; an
end flag that comes early in a longer frame shows in the length and the check alone (log 15). -/
def judge (p : Port) (wire : List Byte) (bad : Bool) : Conditions :=
  let (bs, badEscape) := unescape wire
  if bs.length < 6 then { f := true, c := false, l := 4 ≤ bs.length && lengthFails bs, o := p.full }
  else { f := bad || badEscape, c := checkFails bs, l := lengthFails bs, o := p.full }

/-! ## Floor down and recovery (R69, R153, R177) -/

/-- A floor-down event: FLOOR_DOWN, and the report to the rings (R153, R69). -/
def State.floorDown (s : State) (c : FloorCond) : State :=
  ({ s with floorLine := { s.floorLine with cond := c }, rings := s.rings.map Ring.floorDown }.latch .floorDown .none).settleFloor

/-- A ring that a floor recovery moves. -/
def State.ringWaitsFloor (s : State) (r : RingNo) : Bool := (s.ring r).state == .held && (s.ring r).heldFloor

/-- The rings' part of a floor recovery (R69). Which of the rings that leave HELD asks for its missing claims first is
free (R141, R145, log 5). -/
def State.ringsUp (s : State) : State :=
  let rs := allRings.filter s.ringWaitsFloor
  let (order, s) := State.order rs.length rs s
  order.foldl State.ringFloorUp s

/-- A slot with content made READY (R177). -/
def BoardSlot.recover (b : BoardSlot) : BoardSlot :=
  if b.content.isSome then { b with readiness := .ready } else b

/-- The composer's part of a floor recovery: every slot with content READY (R177). -/
def State.slotsReady (s : State) : State :=
  { s with boards := { s.boards with slots := s.boards.slots.map BoardSlot.recover } }

/-- A floor-recovery event. Whether the rings or the composer are told first is free (R177, log 5). -/
def State.floorRecovery (s : State) : State :=
  let s := { s with floorLine := { s.floorLine with cond := .up } }
  let (k, s) := s.choose (if allRings.any s.ringWaitsFloor then 2 else 1)
  if k = 0 then (s.ringsUp.syncSlots.slotsReady).floorDecide
  else (s.slotsReady.floorDecide.ringsUp).settleFloor

/-- A frame has passed on the floor line: the silence timer starts again, and SILENT ends (R153, R168). -/
def State.floorHeard (s : State) : State :=
  let t := if s.hall.isSome then some (Timer.start s.par.floorSilence) else none
  let s := { s with floorLine := { s.floorLine with silence := t } }
  if s.floorLine.cond == .silent then s.floorRecovery else s

/-! ## FRAME_END (R149, R150) -/

/-- A quay frame's end. A frame with a condition ends a reply wait as a miss (R157). -/
def State.quayFrameEnd (s : State) (wire : List Byte) (bad : Bool) : State :=
  let c := judge s.quay wire bad
  if c.any then
    ({ s with quay := s.quay.count c }.latch .quayErrors s.awaitedSubject).waitMissed.purgeQuay
  else { s with quay := s.quay.receive (frameOf (unescape wire).1) }.purgeQuay

/-- A STOP frame addressed to the part (R168). -/
def isStopFrame (f : Frame) : Bool := f.kind == 0x11 && f.dst == 0

/-- An idle frame of the floor concentrator, which the floor port takes itself (R149, R153). -/
def isIdleFrame (f : Frame) : Bool := f.kind == 0x10

/-- A STOP frame whose length is not 3, whatever its destination (R201). -/
def isMisfitStop (f : Frame) : Bool := f.kind == 0x11 && f.payload.length != 3

/-- FLOOR_ERRORS latched once, with no subject, for each STOP of another length than 3 among frames that the routing
discards (R201). -/
def State.latchMisfitStops (s : State) (fs : List Frame) : State :=
  (fs.filter isMisfitStop).foldl (fun s _ => s.latchCause .floorErrors .none (some .floorErrors)) s

/-- Frames at the front of the floor receive stage that the routing discards, those not addressed to the part and those
of another kind than STOP, leave it (R168); a STOP of another length than 3 among them latches FLOOR_ERRORS, whatever
its destination (R201). They are taken in order of arrival: behind a waiting STOP they wait (log 28). -/
def State.purgeFloor (s : State) : State :=
  let discarded := s.floor.rx.takeWhile (fun f => !(isStopFrame f))
  { s with floor := { s.floor with rx := s.floor.rx.dropWhile (fun f => !(isStopFrame f)) } }.latchMisfitStops discarded

/-- A floor frame's end. A frame that passes starts the silence timer again; idle frames are the port's own, and the
others enter the receive stage for the routing (R149, R153, R168). -/
def State.floorFrameEnd (s : State) (wire : List Byte) (bad : Bool) : State :=
  let c := judge s.floor wire bad
  if c.any then { s with floor := s.floor.count c }.latchCause .floorErrors .none (some .floorErrors)
  else
    let f := frameOf (unescape wire).1
    let s := s.floorHeard
    if isIdleFrame f then s else { s with floor := s.floor.receive f }.purgeFloor

/-- The owner takes a frame: the one at the front of its port's stage, or one that arrives with the stage empty
(R149, log 3). Another frame at the front is taken before it. -/
def Port.take (p : Port) (f : Frame) : Option Port :=
  match p.rx with
  | [] => some p
  | g :: rest => if g = f then some { p with rx := rest } else none

/-! ## BREAK (R152, R153, R165) -/

/-- A frame cut by a BREAK on the quay line: condition F alone (log 16), and a wait in progress ends as a miss
(R150, R157). -/
def State.quayCut (s : State) : State :=
  ({ s with quay := { s.quay with cntF := bump s.quay.cntF } }.latch .quayErrors s.awaitedSubject).waitMissed

/-- Entry of the quay line to BREAK: QUAY_BREAK and the report to the poller (R152, R165). -/
def State.quayBreak (s : State) : State :=
  let s := { s with quay := { s.quay with cntB := bump s.quay.cntB, inBreak := true } }.latch .quayBreak .none
  s.enterBroken.purgeQuay

/-- Entry of the quay line to BREAK with a frame being gathered: whether the frame's end or the BREAK is taken first is
free (log 5). -/
def State.quayBreakCut (s : State) : State :=
  let (k, s) := s.choose 2
  if k = 0 then s.quayCut.quayBreak else s.quayBreak.quayCut

/-- Entry of the floor line to BREAK; a frame cut by it has condition F alone (R152, R153, log 16). -/
def State.floorBreak (s : State) (cut : Bool) : State :=
  let p := s.floor
  let s := { s with floor := { p with cntB := bump p.cntB, cntF := if cut then bump p.cntF else p.cntF, inBreak := true } }
  let s := if cut then s.latchCause .floorErrors .none (some .floorErrors) else s
  if s.floorLine.cond == .up then s.floorDown .broken
  else { s with floorLine := { s.floorLine with cond := .broken } }

/-- Entry of the office line to BREAK; a frame cut by it has condition F alone (R152, log 16). -/
def State.officeBreak (s : State) (cut : Bool) : State :=
  let p := s.office
  { s with office := { p with cntB := bump p.cntB, cntF := if cut then bump p.cntF else p.cntF, inBreak := true } }

/-- A line spacing for longer than the break time enters BREAK; no port detects BREAK while HALL is absent (R152). -/
def State.entersBreak (s : State) (l : LineId) (spacing : Nat) : Bool :=
  s.hall.isSome && !(s.port l).inBreak && s.par.breakTime < spacing

/-- The end of BREAK on the floor line: SILENT where the timer has run out by then, UP otherwise (R153). -/
def State.floorBreakEnd (s : State) : State :=
  let s := { s with floor := { s.floor with inBreak := false } }
  if timerDue s.floorLine.silence then { s with floorLine := { s.floorLine with cond := .silent } }
  else s.floorRecovery

/-! ## FRAME_SENT (R151) -/

/-- The end of a frame on the quay line: the wait of a poll just sent begins, a poll in the stage goes onto the line,
and where a poll is due the poller goes on from the address last polled, as STATIONS then stands (R151, R156, R157). -/
def State.quaySent (s : State) : State :=
  let s := { s with quay := s.quay.sent }
  match s.poller.poll with
  | none => s
  | some p =>
    match p.phase with
    | .onLine => s.setPoller { s.poller with poll := some { p with phase := .awaiting (Timer.start s.par.replyTimeout) } }
    | .staged => s.setPoller { s.poller with poll := some { p with phase := .onLine } }
    | .due => s.pollNext p.station
    | .awaiting _ => s

/-! ## The routing of stops (R168) -/

/-- The routing's own answer. -/
def routingAnswer (keypad ring : Nat) (code : AnswerCode) : KeypadAnswer :=
  { keypad := keypad, ring := ring, code := code, lot := none, crates := none, price := none, arrival := none }

/-- A STOP frame judged by the routing (R168). A ring takes its events whole: a resolution under way ends first
(R60, R61). -/
def State.routeStop (s : State) (keypad ring wanted : Nat) : State :=
  if keypad = 0 || 64 < keypad then s.giveAnswer (routingAnswer keypad ring .unknown)
  else
    match RingNo.ofNum ring with
    | none => s.giveAnswer (routingAnswer keypad ring .notPermitted)
    | some r => (s.finishResolution r).stopAtRing r keypad wanted

/-! ## Ticks (R197, R199) -/

def Ring.tick (x : Ring) : Ring := { x with timer := x.timer.map Timer.tick }
def BoardSlot.tick (b : BoardSlot) : BoardSlot := { b with pace := b.pace.map Timer.tick }

def ChannelState.tick : ChannelState → ChannelState
  | .capture d => .capture { d with timer := d.timer.tick }
  | .idle => .idle
  | .offline => .offline

/-- The timers of a station's owner; the gates' idle timers are held in LISTEN (R135). -/
def Device.tick (listen : Bool) : Device → Device
  | .weigh cfg ch => .weigh cfg { ch with state := ch.state.tick }
  | .chute cfg c => .chute cfg { c with job := c.job.map (fun d => { d with wait := d.wait.map Timer.tick }) }
  | .gate dir g =>
    if listen then .gate dir g
    else .gate dir { g with session := g.session.map (fun x => { x with idle := x.idle.tick }) }
  | .icePlant => .icePlant

def Station.tick (listen : Bool) (st : Station) : Station :=
  { st with device := st.device.tick listen, age := st.age + 1 }

def Poll.tick (p : Poll) : Poll :=
  match p.phase with
  | .awaiting t => { p with phase := .awaiting t.tick }
  | _ => p

def Poller.tick (p : Poller) : Poller :=
  { p with cycleTimer := p.cycleTimer.map Timer.tick, poll := p.poll.map Poll.tick,
           breakTimer := p.breakTimer.map Timer.tick }

/-- One tick of the hall timer: the time of day and every running timer of the part (R197, R199). -/
def State.tick (s : State) : State :=
  { s with
    clock := s.clock.tick
    rings := s.rings.map Ring.tick
    stations := s.stations.map (fun x => (x.1, x.2.tick (s.poller.state == .listen)))
    poller := s.poller.tick
    floorLine := { s.floorLine with silence := s.floorLine.silence.map Timer.tick }
    boards := { s.boards with slots := s.boards.slots.map BoardSlot.tick } }

end Sys2Proof.Machine
end

