-- ==== Sys2Proof/Machine/Office.lean ====
section
/-! DEFINITION. The management unit: the taking of a request and its response (sections 10.1, 12.4). -/

namespace Sys2Proof.Machine

/-- The status codes (Table 10-1), in the order of Table 12-9. -/
inductive Status where
  | ok | unknownRequest | badTable | badIndex | range | inUse | notFound | state | full | duplicate | credit
  deriving DecidableEq, Repr

def Status.code : Status → Nat
  | .ok => 0 | .unknownRequest => 1 | .badTable => 2 | .badIndex => 3 | .range => 4 | .inUse => 5 | .notFound => 6
  | .state => 7 | .full => 8 | .duplicate => 9 | .credit => 10

/-- A set of latch numbers as a number: bit n − 1 for latch n. -/
def bitSet (ns : List Nat) : Nat := (ns.map (fun n => 2 ^ (n - 1))).sum

/-- What every response begins with: status, highest reportable priority, reportable set, operating state
(spec/12, 12.4). -/
def State.responseHead (s : State) (st : Status) : List Byte :=
  be 1 st.code ++ be 1 s.topPriority ++ be 2 (bitSet s.reportables) ++ be 1 (if s.op = .run then 1 else 0)

/-- The response frame: source 0, addressed to the request's source, with its kind (R180). -/
def State.responseFrame (s : State) (src kind : Byte) (st : Status) (result : List Byte) : Frame :=
  { dst := src, src := 0, kind := kind, payload := s.responseHead st ++ result }

/-- What an owner answers to a request: the status, the result fields and the state it leaves. -/
structure Served where
  status : Status
  result : List Byte
  state : State

def refuse (s : State) (st : Status) : Served := { status := st, result := [], state := s }

/-- The response placed in the office transmit stage, built from the state as the owner left it (R180). -/
def Served.respond (v : Served) (src kind : Byte) : State :=
  { v.state with office := v.state.office.place (v.state.responseFrame src kind v.status v.result) }

/-- A frame that cannot be taken as it arrives waits in an empty entry of the receive stage; with both entries occupied
it is discarded and counted as an overrun (R149, R150, R179). -/
def State.officeWaits (s : State) (f : Frame) : State :=
  { s with office := if s.office.full then s.office.count { f := false, c := false, l := false, o := true }
                     else s.office.receive f }

/-- A frame that arrives at the management unit, or that stood at the front of the receive stage as the transmit stage
became empty: taken, served and answered (R179). While a response waits in the transmit stage, or another frame stands
before it, it waits in the receive stage; FRAME_SENT takes it from there (log 4). -/
def State.serve (s : State) (f : Frame) (owner : State → Served) : State :=
  if s.office.stage.isSome then s.officeWaits f
  else
    match s.office.take f with
    | none => s.officeWaits f
    | some p => (owner { s with office := p }).respond f.src f.kind

/-- The frame of a management request. -/
def requestFrame (src kind : Byte) (payload : List Byte) : Frame :=
  { dst := 0, src := src, kind := kind, payload := payload }

/-- A request whose payload is read by a layout of Table 12-6; a length that does not fit is answered RANGE without
effect (R202). -/
def withPayload {α : Type} (x : Option α) (s : State) (owner : α → Served) : Served :=
  match x with
  | none => refuse s .range
  | some a => owner a

/-- A request taken in RUN alone is refused STATE in LOAD (R189, Table 10-5). -/
def inRun (s : State) (v : Served) : Served := if s.op = .run then v else refuse s .state

/-! ## Codes the spec lists nowhere (log 6) -/

def AccountState.byte : AccountState → Byte
  | .opened => Config.code .accountState 0
  | .stopped => Config.code .accountState 1
def StopCause.byte : StopCause → Byte
  | .none => Config.code .stopCause 0
  | .office => Config.code .stopCause 1
  | .overlimit => Config.code .stopCause 2
def TrackerState.byte : TrackerState → Byte
  | .moving => Config.code .trackerState 0
  | .stable => Config.code .trackerState 1
  | .fault => Config.code .trackerState 2
def ChannelState.byte : ChannelState → Byte
  | .idle => Config.code .channelState 0
  | .capture _ => Config.code .channelState 1
  | .offline => Config.code .channelState 2
def Liveness.byte : Liveness → Byte
  | .online => Config.code .liveness 0
  | .offline => Config.code .liveness 1
def FloorCond.byte : FloorCond → Byte
  | .up => Config.code .floorCondition 0
  | .silent => Config.code .floorCondition 1
  | .broken => Config.code .floorCondition 2
def Stall.byte : Stall → Byte
  | .none => Config.code .ringStall 0
  | .claims => Config.code .ringStall 1
  | .profile => Config.code .ringStall 2
def LotState.byte : LotState → Byte
  | .queued => Config.code .lotState 0
  | .onClock => Config.code .lotState 1
def ChuteState.byte : Option ChuteState → Byte
  | none => Config.code .chuteState 0
  | some .requested => Config.code .chuteState 1
  | some .running => Config.code .chuteState 2
  | some .ending => Config.code .chuteState 3
  | some .suspended => Config.code .chuteState 4
def SuspendCause.byte : Option SuspendCause → Byte
  | none => Config.absentCode .suspendCause
  | some .preempt => Config.code .suspendCause 0
  | some .dry => Config.code .suspendCause 1
/-- The pending outcome as READ of STATIONS gives it: SUSPEND or END. The cause that a pending SUSPEND holds is not
shown, and the suspend cause is absent, until the chute is SUSPENDED: DESIGN CHOICE (log 14). -/
def PendingOutcome.byte : Option PendingOutcome → Byte
  | none => Config.absentCode .pendingOutcome
  | some (.suspend _) => Config.code .pendingOutcome 0
  | some .end_ => Config.code .pendingOutcome 1
/-- The screw state's code (free, log 6), then in a second byte the number of the chute it serves, 0 in IDLE and DRY.
R112 gives a state that names a chute no layout: DESIGN CHOICE (log 32). -/
def State.screwBytes (s : State) : List Byte :=
  match s.ice.screw with
  | .idle => [Config.code .screwState 0, 0]
  | .running a => [Config.code .screwState 1, BitVec.ofNat 8 (s.chuteNo a)]
  | .switching a => [Config.code .screwState 2, BitVec.ofNat 8 (s.chuteNo a)]
  | .dry => [Config.code .screwState 3, 0]

/-- A record as COLLECT returns it (spec/12, 12.6). -/
def RecordBody.kindCode : RecordBody → Nat
  | .landing _ _ _ _ _ _ _ _ _ _ => 1
  | .sale _ _ _ _ _ _ _ _ _ _ _ _ _ => 2
  | .withdrawn _ _ _ _ _ => 3
  | .ice _ _ _ _ _ _ _ _ => 4
  | .crate _ _ _ _ _ _ _ => 5
  | .transfer _ _ _ _ _ => 6
  | .settlement _ _ _ => 7
  | .pool _ _ _ _ _ => 8

def DayTotals.bytes (t : DayTotals) : List Byte :=
  be 6 t.landed ++ be 6 t.sold ++ be 6 t.bought ++ be 6 t.ice ++ be 6 t.levies

def Direction.code : Direction → Nat
  | .into => 1
  | .out => 2

def RecordBody.bytes : RecordBody → List Byte
  | .landing lot boat species ctype count gross tare allowance net station =>
    be 2 lot ++ be 2 boat ++ be 2 species ++ be 1 ctype ++ be 1 count ++ beInt 4 gross ++ be 4 tare ++ be 4 allowance
      ++ be 4 net ++ be 1 station
  | .sale lot ring keypad buyer boat k w price value sellerLevy commission deposit flags =>
    be 2 lot ++ be 1 ring ++ be 1 keypad ++ be 2 buyer ++ be 2 boat ++ be 1 k ++ be 4 w ++ be 3 price ++ be 4 value
      ++ be 4 sellerLevy ++ be 4 commission ++ be 4 deposit ++ be 1 flags.byte
  | .withdrawn lot boat crates net cause =>
    be 2 lot ++ be 2 boat ++ be 1 crates ++ be 4 net ++ be 1 (match cause with | .runOut => 1 | .office => 2)
  | .ice chute account ordered granted delivered charge cause flags =>
    be 1 chute ++ be 2 account ++ be 3 ordered ++ be 3 granted ++ be 3 delivered ++ be 4 charge ++ be 1 cause.code
      ++ be 1 flags.byte
  | .crate gate account ctype dir count amount cause =>
    be 1 gate ++ be 2 account ++ be 1 ctype ++ be 1 dir.code ++ be 2 count ++ be 4 amount ++ be 1 cause.code
  | .transfer src dst amount srcFlags dstFlags =>
    be 2 src ++ be 2 dst ++ be 4 amount ++ be 1 srcFlags.byte ++ be 1 dstFlags.byte
  | .settlement account balance totals => be 2 account ++ beInt 4 balance ++ totals.bytes
  | .pool ctype size store shortfall cause =>
    be 1 ctype ++ be 6 size ++ be 6 store ++ be 6 shortfall
      ++ be 1 (match cause with | .adjust => 1 | .stocktake => 2)

def Record.bytes (r : Record) : List Byte := be 2 r.number ++ be 1 r.body.kindCode ++ stampBytes r.at_ ++ r.body.bytes

end Sys2Proof.Machine
end

