-- ==== Sys2Proof/Machine/Load.lean ====
section
/-! DEFINITION. LOAD of the tables, entry by entry (sections 1.6, 6.2, 10.3; Table 12-7). -/

namespace Sys2Proof.Machine

/-! ## One LOAD (R182) -/

/-- How one entry is written at an index: the status that refuses it, or the state after the write. -/
abbrev Writer := State → Nat → List Byte → Except Status State

/-- The entries written in order; the first refused ends the LOAD (R182). The index of the first entry not written. -/
def loadEntries (write : Writer) : List (List Byte) → Nat → State → Status × Nat × State
  | [], i, s => (.ok, i, s)
  | e :: es, i, s =>
    match write s i e with
    | .ok s' => loadEntries write es (i + 1) s'
    | .error st => (st, i, s)

/-- A LOAD of entries; the response gives the index of the first entry not written (R182). A payload without a whole
number of entries, one at least, is RANGE with no result fields: R202 says so of a length that does not fit, R182 gives
every response an index, and the model follows R202 (log 7). -/
def serveLoad (write : Writer) (entries : Option (Nat × List (List Byte))) (s : State) : Served :=
  withPayload entries s (fun (start, es) =>
    let (st, i, s') := loadEntries write es start s
    { status := st, result := be 2 i, state := s' })

/-- A FREE mark, or an enabled mark, other than 0 or 1 is out of range, in an entry marked FREE too (R202). -/
def badMark (p : List Byte) (off : Nat) : Bool := 1 < fieldAt p off 1

/-! ## HALL (R187, Table 10-4) -/

def readHallEntry (p : List Byte) : Hall :=
  { sellerLevy := fieldAt p 0 2, buyerCommission := fieldAt p 2 2, iceBoats := fieldAt p 4 2,
    iceBuyers := fieldAt p 6 2, netStep := fieldAt p 8 1, captureTimeout := fieldAt p 9 1,
    resolveWindow := fieldAt p 10 2, reofferLimit := fieldAt p 12 1, replyTimeout := fieldAt p 13 1,
    missLimit := fieldAt p 14 1, cyclePeriod := fieldAt p 15 2, breakTime := fieldAt p 17 2,
    floorSilence := fieldAt p 19 2, gateIdle := fieldAt p 21 2, iceWait := fieldAt p 23 2,
    reserveLevel := fieldAt p 25 1, lowMark := fieldAt p 26 1, resumeMark := fieldAt p 27 1,
    boardInterval := fieldAt p 28 2, noticeLevel := fieldAt p 30 1 }

/-- `lo` to `hi`, inclusive at both ends. -/
def within (lo x hi : Nat) : Bool := lo ≤ x && x ≤ hi

/-- Every parameter is in its range (Table 10-4). -/
def Hall.inRange (h : Hall) : Bool :=
  within 0 h.sellerLevy 2000 && within 0 h.buyerCommission 2000 && within 0 h.iceBoats 1000
    && within 0 h.iceBuyers 1000 && [1, 2, 5, 10].contains h.netStep && within 5 h.captureTimeout 120
    && within 50 h.resolveWindow 1000 && within 0 h.reofferLimit 3 && within 5 h.replyTimeout 100
    && within 1 h.missLimit 15 && within 50 h.cyclePeriod 2000 && within 10 h.breakTime 1000
    && within 200 h.floorSilence 5000 && within 10 h.gateIdle 600 && within 60 h.iceWait 3600
    && within 0 h.reserveLevel 7 && within 0 h.lowMark 99 && within (h.lowMark + 1) h.resumeMark 100
    && within 100 h.boardInterval 2000 && within 0 h.noticeLevel 7

/-- The HALL entry written (R187); at the first write the silence timer starts from 0 (R153). -/
def State.setHall (s : State) (h : Hall) : State :=
  let t := if s.hall.isNone then some (Timer.start h.floorSilence) else s.floorLine.silence
  { s with hall := some h, noticeLevel := h.noticeLevel, floorLine := { s.floorLine with silence := t } }

def writeHall : Writer := fun s i e =>
  if i ≠ 1 then .error .badIndex
  else if (readHallEntry e).inRange then .ok (s.setHall (readHallEntry e)) else .error .range

/-! ## SPECIES and PROFILES (R185) -/

/-- The rings stalled PROFILE are told (R51, R185). -/
def State.tellProfiles (s : State) : State := { s with rings := s.rings.map Ring.tellProfile }

/-- A code held by an entry of another index. -/
def speciesHeldElsewhere (t : Table Species) (i code : Nat) : Bool := t.any (fun x => x.1 != i && x.2.code == code)

def writeSpecies : Writer := fun s i e =>
  if !(within 1 i 64) then .error .badIndex
  else if badMark e 7 then .error .range
  else if fieldAt e 7 1 = 1 then .ok { s with species := s.species.erase i }.tellProfiles
  else
    match RingNo.ofNum (fieldAt e 2 1) with
    | none => .error .range
    | some r =>
      let x : Species := { code := fieldAt e 0 2, ring := r, profile := fieldAt e 3 1, m := fieldAt e 4 1, n := fieldAt e 5 2 }
      if !(within 1 x.code 9999 && within 1 x.profile 16 && within 0 x.m 250 && within 1 x.n 1000 && x.m ≤ x.n) then
        .error .range
      else if speciesHeldElsewhere s.species i x.code then .error .duplicate
      else .ok { s with species := s.species.set i x }.tellProfiles

def readProfileEntry (e : List Byte) : Profile :=
  { start := fieldAt e 0 3, floor := fieldAt e 3 3, step := fieldAt e 6 2, interval := fieldAt e 8 2,
    leadIn := fieldAt e 10 2, resumePause := fieldAt e 12 2, restartRaise := fieldAt e 14 1, afterSale := fieldAt e 15 2 }

def Profile.inRange (p : Profile) : Bool :=
  within 1 p.start 99999 && within 1 p.floor p.start && within 1 p.step 10000 && within 50 p.interval 5000
    && within 0 p.leadIn 10000 && within 0 p.resumePause 10000 && within 0 p.restartRaise 20
    && within 0 p.afterSale 10000

def writeProfile : Writer := fun s i e =>
  if !(within 1 i 16) then .error .badIndex
  else if badMark e 17 then .error .range
  else if fieldAt e 17 1 = 1 then .ok { s with profiles := s.profiles.erase i }.tellProfiles
  else if (readProfileEntry e).inRange then .ok { s with profiles := s.profiles.set i (readProfileEntry e) }.tellProfiles
  else .error .range

/-! ## Work that names an account or a crate type (R20, R21, R123) -/

/-- The work in flight of a station's context names an account (R20). -/
def Device.namesAccount (n : Nat) : Device → Bool
  | .weigh _ ch => match ch.state with
    | .capture d => d.boat == n
    | _ => false
  | .chute _ c => c.job.any (fun d => d.account == n)
  | .gate _ g => g.session.any (fun x => x.account == n)
  | .icePlant => false

/-- A lot, an open draft, a dispense in flight or an open session names the account (R20, R21). -/
def State.accountInWork (s : State) (n : Nat) : Bool :=
  s.lotStore.lots.any (fun x => x.2.boat == n) || s.stations.any (fun x => x.2.device.namesAccount n)

/-- An open draft or session names a crate type (R123). -/
def Device.namesType (t : Nat) : Device → Bool
  | .weigh _ ch => match ch.state with
    | .capture d => d.ctype == t
    | _ => false
  | .gate _ g => g.session.any (fun x => x.ctype == t)
  | .chute _ _ => false
  | .icePlant => false

/-! ## CRATES (R121 to R123) -/

/-- A crate type that may be deleted (R123). -/
def State.typeFree (s : State) (t : Nat) : Bool :=
  s.bank.accounts.all (fun x => x.2.crateBalance t == 0) && s.lotStore.lots.all (fun x => x.2.ctype != t)
    && s.stations.all (fun x => !(x.2.device.namesType t))

def writeCrate : Writer := fun s i e =>
  if !(within 1 i 8) then .error .badIndex
  else if badMark e 6 then .error .range
  else
    let tare := fieldAt e 0 2
    let deposit := fieldAt e 2 2
    let pool := fieldAt e 4 2
    match s.crateTypes.find i with
    | none =>
      if fieldAt e 6 1 = 1 then .ok s
      else if within 0 tare 1000 && within 0 deposit 5000 && within 0 pool 30000 then
        let c : CrateType :=
          { tare := tare, deposit := deposit, pool := pool, store := pool, shortfall := 0, residue := 0 }
        .ok { s with crateTypes := s.crateTypes.set i c }
      else .error .range
    | some c =>
      if fieldAt e 6 1 = 1 then
        if s.typeFree i then .ok { s with crateTypes := s.crateTypes.erase i } else .error .inUse
      else if within 0 tare 1000 && within 0 deposit 5000 then
        .ok { s with crateTypes := s.crateTypes.set i { c with tare := tare, deposit := deposit } }
      else .error .range

/-! ## KEYPADS and BOARD TEXT (R186) -/

/-- The set of rings of a byte: bit n − 1 for ring n (Table 12-7). -/
def ringSet (b : Nat) : Four Bool :=
  { a1 := b.testBit 0, a2 := b.testBit 1, a3 := b.testBit 2, a4 := b.testBit 3 }

def writeKeypad : Writer := fun s i e =>
  if !(within 1 i 64) then .error .badIndex
  else if badMark e 4 || badMark e 0 || 15 < fieldAt e 3 1 then .error .range
  else if fieldAt e 4 1 = 1 then .ok { s with keypads := s.keypads.erase i }
  else if 9999 < fieldAt e 1 2 then .error .range
  else
    let k : Keypad :=
      { enabled := fieldAt e 0 1 == 1, account := if fieldAt e 1 2 = 0 then none else some (fieldAt e 1 2),
        rings := ringSet (fieldAt e 3 1) }
    .ok { s with keypads := s.keypads.set i k }

/-- A character of the boards: 20 to 7E hexadecimal (spec/12, 12.3). -/
def isBoardChar (b : Byte) : Bool := within 0x20 b.toNat 0x7E

def writeText : Writer := fun s i e =>
  if !(within 1 i 8) then .error .badIndex
  else if 32 < e.length || !(e.all isBoardChar) then .error .range
  else .ok { s with boards := { s.boards with text := if e = [] then s.boards.text.erase i else s.boards.text.set i e } }

/-! ## ACCOUNTS (R19 to R21) -/

/-- The kind of a code; HALL and codes outside the list are refused (R19, R202). -/
def accountKindOf : Nat → Option AccountKind
  | 1 => some .boat
  | 2 => some .buyer
  | _ => none

/-- The fields an entry gives, in their ranges (R19): number, kind, credit limit, crate overdraft. -/
def readAccountEntry (e : List Byte) : Option (Nat × AccountKind × Nat × Option Nat) :=
  match accountKindOf (fieldAt e 2 1) with
  | none => none
  | some k =>
    if within 1 (fieldAt e 0 2) 9999 && within 0 (fieldAt e 3 4) 100000000
        && (k == .buyer || within 0 (fieldAt e 7 2) 500) then
      some (fieldAt e 0 2, k, fieldAt e 3 4, if k == .boat then some (fieldAt e 7 2) else none)
    else none

/-- A new account (R19). -/
def newAccount (n : Nat) (k : AccountKind) (limit : Nat) (overdraft : Option Nat) : Account :=
  { number := n, kind := k, state := .opened, cause := .none, balance := 0, limit := some limit, held := 0, crates := [],
    overdraft := overdraft, totals := DayTotals.zero, flags := { n := false, z := true, v := false, l := false } }

/-- An account that may be freed (R21). -/
def State.accountFree (s : State) (a : Account) : Bool :=
  a.balance == 0 && a.held == 0 && a.noCrates && s.keypads.all (fun x => x.2.account != some a.number)
    && !(s.accountInWork a.number)

/-- A change of kind is allowed (R20). -/
def State.kindFree (s : State) (a : Account) : Bool := a.held == 0 && !(s.accountInWork a.number)

/-- An entry of ACCOUNTS (R19 to R21, R202). The order of its refusals is the model's (log 8): a kind code or a FREE mark
outside its list is RANGE before a number other than the slot's is IN_USE, and that before a number out of its range. -/
def writeAccount : Writer := fun s i e =>
  if !(within 1 i 511) then .error .badIndex
  else if badMark e 13 || !(within 1 (fieldAt e 2 1) 3) then .error .range
  else
    let free := fieldAt e 13 1 == 1
    match s.bank.accounts.find i with
    | none =>
      if free then .ok s
      else
        match readAccountEntry e with
        | none => .error .range
        | some (n, k, limit, overdraft) =>
          if (s.account n).isSome then .error .duplicate
          else .ok { s with bank := { s.bank with accounts := s.bank.accounts.set i (newAccount n k limit overdraft) } }
    | some a =>
      if a.number ≠ fieldAt e 0 2 then .error .inUse
      else if free then
        if s.accountFree a then .ok { s with bank := { s.bank with accounts := s.bank.accounts.erase i } }
        else .error .inUse
      else
        match readAccountEntry e with
        | none => .error .range
        | some (_, k, limit, overdraft) =>
          if k ≠ a.kind && !(s.kindFree a) then .error .inUse
          else
            let b := { a with kind := k, limit := some limit, overdraft := overdraft }
            .ok ({ s with bank := { s.bank with accounts := s.bank.accounts.set i b } }.stopIfShort a.number)

/-! ## STATIONS (R183, R184) -/

/-- The kind and fields of an entry in their ranges, with a context as at its creation (R24, R96, R125, R183). -/
def readDevice (e : List Byte) : Option Device :=
  match fieldAt e 0 1 with
  | 1 =>
    if within 100 (fieldAt e 2 4) 300000 && within 2 (fieldAt e 6 1) 15 && within 0 (fieldAt e 7 1) 50 then
      some (.weigh { capacity := fieldAt e 2 4, stability := fieldAt e 6 1, band := fieldAt e 7 1 }
        { tracker := Tracker.reset, state := .offline })
    else none
  | 2 =>
    if within 1 (fieldAt e 8 1) 7 && within (fieldAt e 8 1) (fieldAt e 9 1) 7 then
      some (.chute { cls := fieldAt e 8 1, runLevel := fieldAt e 9 1 } { tag := 0, job := none })
    else none
  | 3 =>
    match fieldAt e 10 1 with
    | 1 => some (.gate .into { tag := 0, session := none, lastClose := none, report := none })
    | 2 => some (.gate .out { tag := 0, session := none, lastClose := none, report := none })
    | 3 => some (.gate .both { tag := 0, session := none, lastClose := none, report := none })
    | _ => none
  | 4 => some .icePlant
  | _ => none

/-- The owner has work in flight (R183, step 2). -/
def Device.busy : Device → Bool
  | .weigh _ ch => match ch.state with
    | .capture _ => true
    | _ => false
  | .chute _ c => c.job.isSome
  | .gate _ g => g.session.isSome
  | .icePlant => false

/-- The same kind of station. -/
def Device.sameKind : Device → Device → Bool
  | .weigh _ _, .weigh _ _ => true
  | .chute _ _, .chute _ _ => true
  | .gate _ _, .gate _ _ => true
  | .icePlant, .icePlant => true
  | _, _ => false

/-- How many stations of a kind the table may hold (R183, step 3). -/
def Device.limit : Device → Nat
  | .weigh _ _ => 16
  | .chute _ _ => 6
  | .gate _ _ => 6
  | .icePlant => 1

/-- The write would leave more stations of the kind than allowed (R183, step 3). -/
def State.kindFull (s : State) (a : Nat) (d : Device) : Bool :=
  d.limit ≤ (s.stations.filter (fun x => x.1 != a && x.2.device.sameKind d)).length

/-- The context that stands after a write: kept where the kind is kept, its tracker reset, the channel state as the
liveness has it (R29, R44, R96, R125). -/
def Device.rewrite (old new : Device) (live : Liveness) : Device :=
  let st : ChannelState := if live == .online then .idle else .offline
  match old, new with
  | .weigh _ _, .weigh cfg _ => .weigh cfg { tracker := Tracker.reset, state := st }
  | .chute _ c, .chute cfg _ => .chute cfg c
  | .gate _ g, .gate dir _ => .gate dir g
  | _, .weigh cfg ch => .weigh cfg { ch with state := st }
  | _, d => d

/-- The poller's record after a write to a station that exists (R155). -/
def Station.rewrite (st : Station) (enabled : Bool) (new : Device) : Station :=
  let live : Liveness := if enabled && st.enabled then st.live else .offline
  let device := st.device.rewrite new live
  if st.enabled && !enabled then
    { st with enabled := false, device := device, live := .offline, commands := [], carried := false,
              misses := if st.live == .online then 0 else st.misses }
  else if !st.enabled && enabled then { st with enabled := true, device := device, live := .offline, misses := 0 }
  else { st with device := device, live := live }

/-- A new station record (R155). -/
def newStation (enabled : Bool) (d : Device) : Station :=
  { enabled := enabled, device := d, live := .offline, misses := 0, commands := [], lastHeard := none, age := 0,
    carried := false }

/-- The plant after a write to its address: unknown where the station is removed, changed in kind or disabled while
ONLINE (R114, R117, R155). -/
def State.plantWritten (s : State) (a : Nat) (old : Station) (stays enabled : Bool) : State :=
  if !old.device.isIcePlant then s
  else if !stays then s.plantUnknown .none
  else if old.live == .online && !enabled then s.plantUnknown (.station a)
  else s

/-- A kind outside its list, or a GATE entry's direction outside its list (R202). -/
def badStationCode (e : List Byte) : Bool :=
  !(within 1 (fieldAt e 0 1) 4) || (fieldAt e 0 1 == 3 && !(within 1 (fieldAt e 10 1) 3))

def writeStation : Writer := fun s a e =>
  if !(within 1 a 30) then .error .badIndex
  else if badMark e 11 || badMark e 1 || badStationCode e then .error .range
  else if fieldAt e 11 1 = 1 then
    match s.station a with
    | none => .ok s
    | some st =>
      if st.device.busy then .error .inUse
      else .ok ({ s with stations := s.stations.erase a }.plantWritten a st false false)
  else
    match readDevice e with
    | none => .error .range
    | some d =>
      let enabled := fieldAt e 1 1 == 1
      match s.station a with
      | none =>
        if s.kindFull a d then .error .full else .ok { s with stations := s.stations.set a (newStation enabled d) }
      | some st =>
        if st.device.busy then .error .inUse
        else if s.kindFull a d then .error .full
        else
          .ok ({ s with stations := s.stations.set a (st.rewrite enabled d) }.plantWritten a st d.isIcePlant enabled)

/-- The channel, chute or gate number of a station; 0 where it has none (R184). -/
def State.ownNumber (s : State) (a : Nat) : Nat :=
  match s.station a with
  | none => 0
  | some st =>
    match st.device with
    | .weigh _ _ => s.channelNo a
    | .chute _ _ => s.chuteNo a
    | .gate _ _ => s.gateNo a
    | .icePlant => 0

/-- The numbers of `n` stations from an address on. -/
def State.numbersFrom (s : State) : Nat → Nat → List Byte
  | 0, _ => []
  | n + 1, a => BitVec.ofNat 8 (s.ownNumber a) :: s.numbersFrom n (a + 1)

/-- A LOAD of STATIONS, with the numbers of the stations written as they stand after it (R184). -/
def serveLoadStations (body : List Byte) (s : State) : Served :=
  withPayload (readLoad 12 body) s (fun (start, es) =>
    let (st, i, s') := loadEntries writeStation es start s
    { status := st, result := be 2 i ++ s'.numbersFrom (i - start) start, state := s'.purgeQuay })

end Sys2Proof.Machine
end

