-- ==== Sys2Proof/Machine/Read.lean ====
section
/-! DEFINITION. READ of the tables (section 10.4, 12.5; R22, R24, R49, R96, R124, R125, R167). -/

namespace Sys2Proof.Machine

/-! ## One READ (R188) -/

/-- An entry's bytes at an index: the index, a present byte, and the fields of a present entry (spec/12, 12.5). -/
def entryBytes (i : Nat) (fields : Option (List Byte)) : List Byte :=
  match fields with
  | none => be 2 i ++ [0]
  | some bs => be 2 i ++ [1] ++ bs

/-- The room of a response payload for entries: 120 bytes less the head (5) and the index (2). -/
def readRoom : Nat := 113

/-- Up to `n` entries from an index on, while they fit and the table goes on; the index of the first entry not
returned (R188). -/
def readEntries (entry : Nat → Option (List Byte)) (last : Nat) : Nat → Nat → Nat → List Byte × Nat
  | 0, i, _ => ([], i)
  | n + 1, i, room =>
    if last < i then ([], i)
    else
      let e := entryBytes i (entry i)
      if room < e.length then ([], i)
      else
        let (es, j) := readEntries entry last n (i + 1) (room - e.length)
        (e ++ es, j)

/-- A READ of a table with indices `first` to `last` (R188). A READ changes nothing. -/
def serveRead (first last : Nat) (entry : State → Nat → Option (List Byte)) (body : List Byte) (s : State) : Served :=
  withPayload (readRead body) s (fun (i, count) =>
    if !(within 1 count 8) then refuse s .range
    else if !(within first i last) then refuse s .badIndex
    else
      let (es, j) := readEntries (entry s) last count i readRoom
      { status := .ok, result := es ++ be 2 j, state := s })

/-! ## Entries (Table 12-7, then the state fields of the owning rule) -/

def Hall.bytes (h : Hall) : List Byte :=
  be 2 h.sellerLevy ++ be 2 h.buyerCommission ++ be 2 h.iceBoats ++ be 2 h.iceBuyers ++ be 1 h.netStep
    ++ be 1 h.captureTimeout ++ be 2 h.resolveWindow ++ be 1 h.reofferLimit ++ be 1 h.replyTimeout ++ be 1 h.missLimit
    ++ be 2 h.cyclePeriod ++ be 2 h.breakTime ++ be 2 h.floorSilence ++ be 2 h.gateIdle ++ be 2 h.iceWait
    ++ be 1 h.reserveLevel ++ be 1 h.lowMark ++ be 1 h.resumeMark ++ be 2 h.boardInterval ++ be 1 h.noticeLevel

def hallEntry (s : State) (_ : Nat) : Option (List Byte) := s.hall.map Hall.bytes

def speciesEntry (s : State) (i : Nat) : Option (List Byte) :=
  (s.species.find i).map (fun x => be 2 x.code ++ be 1 x.ring.num ++ be 1 x.profile ++ be 1 x.m ++ be 2 x.n)

def profileEntry (s : State) (i : Nat) : Option (List Byte) :=
  (s.profiles.find i).map (fun p =>
    be 3 p.start ++ be 3 p.floor ++ be 2 p.step ++ be 2 p.interval ++ be 2 p.leadIn ++ be 2 p.resumePause
      ++ be 1 p.restartRaise ++ be 2 p.afterSale)

/-- The holdings of a type: crate balances of all accounts and crates remaining of all lots (section 6.1). -/
def State.holdings (s : State) (t : Nat) : Int :=
  (s.bank.accounts.map (fun x => x.2.crateBalance t)).sum
    + ((s.lotStore.lots.map (fun x => if x.2.ctype = t then (x.2.remaining : Int) else 0)).sum)

/-- The gate sessions open for a type (R124). -/
def State.openSessions (s : State) (t : Nat) : Nat :=
  (s.stations.filter (fun x => match x.2.device with
    | .gate _ g => g.session.any (fun y => y.ctype == t)
    | _ => false)).length

/-- What R124 returns of a type. The pool size stands in its LOAD place of two bytes, which carries its low 16 bits
where it is above 65,535, and whole among the counts (log 14). -/
def crateEntry (s : State) (i : Nat) : Option (List Byte) :=
  (s.crateTypes.find i).map (fun c =>
    be 2 c.tare ++ be 2 c.deposit ++ be 2 c.pool ++ be 6 c.pool ++ be 6 c.store ++ be 6 c.shortfall ++ beInt 6 c.residue
      ++ beInt 6 (s.holdings i) ++ be 1 (s.openSessions i))

/-- The set of rings as a byte (Table 12-7). -/
def ringSetByte (r : Four Bool) : Nat := r.a1.toNat + 2 * r.a2.toNat + 4 * r.a3.toNat + 8 * r.a4.toNat

def keypadEntry (s : State) (i : Nat) : Option (List Byte) :=
  (s.keypads.find i).map (fun k => markByte k.enabled ++ optZero 2 k.account ++ be 1 (ringSetByte k.rings))

def textEntry (s : State) (i : Nat) : Option (List Byte) := some (be 1 (s.textLine i).length ++ s.textLine i)

def AccountKind.code : AccountKind → Nat
  | .boat => 1
  | .buyer => 2
  | .hall => 3

/-- Account fields of R22, and the residue, absent but at slot 0 (12.4). -/
def accountEntry (s : State) (i : Nat) : Option (List Byte) :=
  (s.bank.accounts.find i).map (fun a =>
    be 2 a.number ++ be 1 a.kind.code ++ optOnes 4 a.limit ++ optOnes 2 a.overdraft ++ beInt 4 a.balance
      ++ [a.state.byte, a.cause.byte] ++ be 6 a.held ++ (if a.isClient then beInt 6 a.available else ones 6)
      ++ ([1, 2, 3, 4, 5, 6, 7, 8].flatMap (fun t => beInt 4 (a.crateBalance t))) ++ a.totals.bytes ++ be 1 a.flags.byte
      ++ optInt 6 (if i = 0 then some s.bank.residue else none))

/-- The owner of a hold: 1 to 6 for a chute, 7 for OFFICE (spec/12, 12.5). -/
def State.ownerByte (s : State) (o : HoldOwner) : Nat :=
  match o with
  | .chute a => s.chuteNo a
  | .office => 7

def holdEntry (s : State) (i : Nat) : Option (List Byte) :=
  (s.bank.holds[i - 1]?).map (fun h =>
    be 1 h.id ++ be 2 h.account ++ be 4 h.amount ++ be 1 (s.ownerByte h.owner) ++ stampBytes h.at_)

/-- A lot's position in a queue, 1 for the front. -/
def positionIn (n : Nat) : List Nat → Nat
  | [] => 0
  | x :: xs => if x = n then 1 else positionIn n xs + 1

/-- Where a lot stands: its position in its ring's queue while QUEUED, its ring's state and price while ON_CLOCK, each
absent in the other case (R49, 12.4). -/
def State.placeBytes (s : State) (n : Nat) (l : Lot) : List Byte :=
  match l.state with
  | .queued => be 2 (positionIn n (s.ring l.ring).queue) ++ ones 1 ++ be 3 0
  | .onClock => be 2 0 ++ be 1 (s.ring l.ring).state.code ++ optZero 3 ((s.ring l.ring).offer.map (·.price))

/-- What R49 returns of a lot: the fields of Table 2-5, its state, and where it stands. -/
def lotEntry (s : State) (n : Nat) : Option (List Byte) :=
  (s.lot n).map (fun l =>
    be 2 n ++ be 2 l.boat ++ be 2 l.species ++ be 1 l.ring.num ++ be 1 l.ctype ++ be 1 l.crates ++ be 1 l.remaining
      ++ beInt 4 l.gross ++ be 4 l.tare ++ be 4 l.allowance ++ be 4 l.net ++ be 4 l.netRemaining ++ be 4 l.soldNet
      ++ be 1 l.soldCrates ++ optZero 3 l.reserve ++ be 1 l.offers ++ stampBytes l.landed ++ be 1 l.station
      ++ [l.state.byte] ++ s.placeBytes n l)

/-! ## STATIONS (R24, R96, R125, R188) -/

def Device.kindCode : Device → Nat
  | .weigh _ _ => 1
  | .chute _ _ => 2
  | .gate _ _ => 3
  | .icePlant => 4

def GateDirection.code : GateDirection → Nat
  | .into => 1
  | .out => 2
  | .both => 3

/-- The LOAD fields of a station; the fields of other kinds carry 0 (Table 12-7). -/
def Device.cfgBytes : Device → List Byte
  | .weigh cfg _ => be 4 cfg.capacity ++ be 1 cfg.stability ++ be 1 cfg.band ++ [0, 0, 0]
  | .chute cfg _ => be 6 0 ++ be 1 cfg.cls ++ be 1 cfg.runLevel ++ [0]
  | .gate d _ => be 8 0 ++ be 1 d.code
  | .icePlant => be 9 0

/-- An optional mark: absent carries all ones, for its range holds 0. -/
def optMark (x : Option Bool) : List Byte := optOnes 1 (x.map Bool.toNat)

/-- A draft as READ returns it, in the order of Table 2-4; outside CAPTURE every field is absent (R24, 12.4). -/
def draftBytes (d : Option Draft) : List Byte :=
  optZero 2 (d.map (·.boat)) ++ optZero 2 (d.map (·.species)) ++ optZero 1 (d.map (·.ring.num)) ++ optOnes 1 (d.map (·.m))
    ++ optZero 2 (d.map (·.n)) ++ optZero 1 (d.map (·.ctype)) ++ optOnes 4 (d.map (·.tare))
    ++ optOnes 4 (d.map (·.deposit)) ++ optZero 1 (d.map (·.count)) ++ optZero 4 (d.map (·.netStep))
    ++ optStamp (d.map (·.deadline)) ++ optStamp (d.map (·.accepted))

/-- A dispense as READ returns it, in the order of Table 5-2; at an IDLE chute every field is absent (R96, 12.4). The latch order is
given in its low 16 bits, so that 65,535 reads as an absent one does: DESIGN CHOICE (log 38). -/
def dispenseBytes (d : Option Dispense) : List Byte :=
  optZero 2 (d.map (·.account)) ++ optZero 3 (d.map (·.ordered)) ++ optZero 3 (d.map (·.granted))
    ++ optOnes 3 (d.map (·.price)) ++ optZero 1 (d.map (·.hold)) ++ optZero 1 (d.map (·.cls))
    ++ optZero 1 (d.map (·.runLevel)) ++ optStamp (d.map (·.requested)) ++ optOnes 2 (d.map (·.latchOrder))
    ++ optMark (d.map (·.started)) ++ optOnes 3 (d.map (·.delivered)) ++ optOnes 3 (d.map (·.current))
    ++ [SuspendCause.byte (d.bind (·.suspendCause)), PendingOutcome.byte (d.bind (·.pendingOutcome))]
    ++ optStamp (d.map (·.deadline))

/-- A session as READ returns it, in the order of Table 6-4; at an IDLE gate every field is absent (R125, 12.4). -/
def sessionBytes (x : Option Session) (tag : Nat) : List Byte :=
  optZero 2 (x.map (·.account)) ++ optZero 1 (x.map (·.ctype)) ++ optZero 1 (x.map (·.dir.code))
    ++ optZero 1 (x.map (fun _ => tag)) ++ optOnes 2 (x.map (·.count)) ++ optMark (x.map (·.clamped))
    ++ optStamp (x.map (·.opened)) ++ optStamp (x.map (·.deadline))

/-- The draft open at a channel, in CAPTURE. -/
def ChannelState.draft : ChannelState → Option Draft
  | .capture d => some d
  | .idle => none
  | .offline => none

/-- The gate state's code. -/
def Gate.stateByte (g : Gate) : Byte := if g.session.isSome then Config.code .gateState 1 else Config.code .gateState 0

/-- The owner's state fields of a station. Before a gate's first report its barrier and count are absent, both all
ones, since the ranges of both hold 0 (12.5, log 31). -/
def State.contextBytes (s : State) (a : Nat) (d : Device) : List Byte :=
  match d with
  | .weigh _ ch =>
    be 1 (s.channelNo a) ++ [ch.state.byte, ch.tracker.state.byte] ++ be 2 ch.tracker.counter
      ++ optInt 4 ch.tracker.previous ++ optInt 4 (ch.tracker.held.map (·.gross)) ++ optStamp (ch.tracker.held.map (·.at_))
      ++ draftBytes ch.state.draft
  | .chute _ c =>
    be 1 (s.chuteNo a) ++ [ChuteState.byte (c.job.map (·.state))] ++ be 1 c.tag ++ dispenseBytes c.job
  | .gate _ g =>
    be 1 (s.gateNo a) ++ [g.stateByte] ++ be 1 g.tag ++ sessionBytes g.session g.tag
      ++ optMark (g.report.map (·.barrierOpen)) ++ optOnes 2 (g.report.map (·.count))
  | .icePlant => []

def stationEntry (s : State) (a : Nat) : Option (List Byte) :=
  (s.station a).map (fun st =>
    be 1 st.device.kindCode ++ markByte st.enabled ++ st.device.cfgBytes ++ s.contextBytes a st.device
      ++ [st.live.byte] ++ be 1 st.misses ++ be 1 st.commands.length)

/-! ## LOTS (R49) -/

/-- Lots by number from one on, up to the first number that no lot carries (R49). -/
def readLotEntries (s : State) : Nat → Nat → Nat → List Byte × Nat
  | 0, i, _ => ([], i)
  | n + 1, i, room =>
    match lotEntry s i with
    | none => ([], i)
    | some bs =>
      let e := entryBytes i (some bs)
      if room < e.length then ([], i)
      else
        let (es, j) := readLotEntries s n (i + 1) (room - e.length)
        (e ++ es, j)

/-- READ of LOTS (R49). Where lot 65,535 is the last read, the READ ends at 65,536, which two bytes cannot carry: the
response then gives 0 (log 33). -/
def serveReadLots (body : List Byte) (s : State) : Served :=
  withPayload (readRead body) s (fun (i, count) =>
    if !(within 1 count 8) then refuse s .range
    else if !(within 1 i 65535) then refuse s .badIndex
    else if (s.lot i).isNone then refuse s .notFound
    else
      let (es, j) := readLotEntries s count i readRoom
      { status := .ok, result := es ++ be 2 j, state := s })

end Sys2Proof.Machine
end

