-- ==== Sys2Proof/Machine/Commands.lean ====
section
/-! DEFINITION. The owners' service of the management commands (sections 1.5, 3.8, 5.4, 6.6, 7.4, 9.5, 10.5, 11.3). -/

namespace Sys2Proof.Machine

/-! ## Account commands (R13 to R18) -/

/-- The account of a number, or NOT_FOUND (section 1.5), also for a number that no account can carry (log 8). -/
def withAccount (s : State) (n : Nat) (k : Account → Served) : Served :=
  match s.account n with
  | none => refuse s .notFound
  | some a => k a

/-- A client account: account 0 is refused STATE (R2). -/
def withClient (s : State) (n : Nat) (k : Account → Served) : Served :=
  if n = 0 then refuse s .state else withAccount s n k

/-- State and stop cause in a response. -/
def stateCauseBytes (st : AccountState) (c : StopCause) : List Byte := [st.byte, c.byte]

/-- STOP (R13). -/
def serveStop (s : State) (n : Nat) : Served :=
  withClient s n (fun _ =>
    { status := .ok, result := stateCauseBytes .stopped .office,
      state := s.modAccount n (fun a => { a with state := .stopped, cause := .office }) })

/-- OPEN (R14). -/
def serveOpen (s : State) (n : Nat) : Served :=
  withClient s n (fun a =>
    if a.available < 0 then
      { status := .credit, result := [Config.absentCode .accountState, Config.absentCode .stopCause] ++ beInt 6 a.available,
        state := s }
    else
      { status := .ok, result := stateCauseBytes .opened .none ++ beInt 6 a.available,
        state := s.modAccount n (fun a => { a with state := .opened, cause := .none }) })

/-- The balance of an account; 0 where there is none. -/
def State.balanceOf (s : State) (n : Nat) : Int :=
  match s.account n with
  | none => 0
  | some a => a.balance

/-- The effect of a TRANSFER that has its claim: posting, stop of the from account, record (R15). -/
def State.transfer (s : State) (src dst amount : Nat) : State :=
  let s := ((s.takeClaims 1).post src dst amount).stopIfShort src
  s.writeRecord (.transfer src dst amount (s.flagsOf src) (s.flagsOf dst))

/-- TRANSFER (R15). -/
def serveTransfer (s : State) (src dst amount : Nat) : Served :=
  withAccount s src (fun _ => withAccount s dst (fun _ =>
    if amount = 0 || 1000000000 < amount || src = dst then refuse s .range
    else if !(s.canClaim 1) then refuse (s.latch .recordsFull (.account src)) .full
    else
      let s' := s.transfer src dst amount
      { status := .ok,
        result := be 2 s.queue.next ++ beInt 4 (s'.balanceOf src) ++ beInt 4 (s'.balanceOf dst)
          ++ be 1 (s'.flagsOf src).byte ++ be 1 (s'.flagsOf dst).byte,
        state := s' }))

/-- SETTLE (R16). -/
def serveSettle (s : State) (n : Nat) : Served :=
  withAccount s n (fun a =>
    if !(s.canClaim 1) then refuse (s.latch .recordsFull (.account n)) .full
    else
      { status := .ok, result := be 2 s.queue.next,
        state := ((s.takeClaims 1).writeRecord (.settlement n a.balance a.totals)).addTotals n (fun _ => DayTotals.zero) })

/-- PLACE HOLD (R11, R17). -/
def servePlaceHold (s : State) (n amount : Nat) : Served :=
  withClient s n (fun a =>
    if amount = 0 || 1000000000 < amount then refuse s .range
    else if s.holdsFull then refuse s .full
    else if a.available < (amount : Int) then refuse s .credit
    else
      { status := .ok, result := be 1 s.newHoldId ++ beInt 6 (a.available - (amount : Int)),
        state := s.addHold n amount .office })

/-- The available credit of an account; 0 where there is none. -/
def State.availableOf (s : State) (n : Nat) : Int :=
  match s.account n with
  | none => 0
  | some a => a.available

/-- RELEASE HOLD (R18); id 0, which no hold can carry, is NOT_FOUND too (log 8). -/
def serveReleaseHold (s : State) (id : Nat) : Served :=
  match s.holdOf id with
  | none => refuse s .notFound
  | some h =>
    match h.owner with
    | .chute _ => refuse s .inUse
    | .office =>
      let s' := s.dropHold id
      { status := .ok, result := be 2 h.account ++ be 4 h.amount ++ beInt 6 (s'.availableOf h.account), state := s' }

/-! ## Ring commands (R67, R68, R70, R71) -/

/-- The HELD causes as a number: OFFICE, FLOOR. -/
def Ring.causesCode (x : Ring) : Nat := x.heldOffice.toNat + 2 * x.heldFloor.toNat

/-- What every ring command's response carries (R50). -/
def State.ringBytes (s : State) (r : RingNo) : List Byte :=
  let x := s.ring r
  be 1 x.state.code ++ [Config.code .heldCauses x.causesCode] ++ markByte x.holdPending ++ [x.stall.byte] ++ be 1 x.claims
    ++ be 2 x.queue.length ++ optZero 2 (x.offer.map (·.lot)) ++ optZero 3 (x.offer.map (·.price))

/-- A ring command's answer with the ring's fields. -/
def ringAnswer (s : State) (r : RingNo) (st : Status) : Served := { status := st, result := s.ringBytes r, state := s }

/-- The ring of a number, in RUN (section 3.8, R189); in LOAD the refusal carries the ring's fields too (R50). A
resolution under way at the ring ends first (R61). -/
def withRing (s : State) (n : Nat) (k : State → RingNo → Served) : Served :=
  match RingNo.ofNum n with
  | none => refuse s .badIndex
  | some r => if s.op = .run then k (s.finishResolution r) r else ringAnswer s r .state

/-- START (R70). -/
def serveStart (s : State) (n : Nat) : Served :=
  withRing s n (fun s r =>
    if (s.ring r).state == .idle then
      ringAnswer (s.modRing r (fun x => { x with state := .waiting, stall := .none, told := false })).settleFloor r .ok
    else ringAnswer s r .state)

/-- The causes and pending HOLD cleared as a ring stops; the clear-seen mark if it was HELD (R71). -/
def Ring.unhold (x : Ring) : Ring :=
  { x with heldOffice := false, heldFloor := false, holdPending := false, clearSeen := x.clearSeen || x.state == .held }

/-- STOP of a ring that is neither IDLE, RESOLVING nor AFTER_SALE (R71). -/
def State.stopRing (s : State) (r : RingNo) : State :=
  let x := s.ring r
  let s := s.modRing r Ring.unhold
  let s := match x.offer with
    | none => s
    | some o => s.returnLot r o.lot
  s.closeOffer r .idle

def serveStopRing (s : State) (n : Nat) : Served :=
  withRing s n (fun s r =>
    match (s.ring r).state with
    | .idle => ringAnswer s r .state
    | .resolving => ringAnswer s r .state
    | .afterSale => ringAnswer s r .state
    | .waiting => ringAnswer (s.stopRing r).settleFloor r .ok
    | .leadIn => ringAnswer (s.stopRing r).settleFloor r .ok
    | .descending => ringAnswer (s.stopRing r).settleFloor r .ok
    | .held => ringAnswer (s.stopRing r).settleFloor r .ok)

/-- HOLD at a ring that is not IDLE (R67). -/
def Ring.officeHold (x : Ring) : Ring :=
  match x.state with
  | .idle => x
  | .resolving => { x with holdPending := true }
  | .afterSale => { x with holdPending := true }
  | .held => { x with heldOffice := true }
  | .waiting => x.hold true false
  | .leadIn => x.hold true false
  | .descending => x.hold true false

def serveHold (s : State) (n : Nat) : Served :=
  withRing s n (fun s r =>
    if (s.ring r).state == .idle then ringAnswer s r .state
    else ringAnswer (s.modRing r Ring.officeHold).settleFloor r .ok)

/-- RELEASE that removes cause OFFICE: the ring leaves HELD where no cause remains; with an offer and the floor down it
keeps FLOOR and stays HELD without a mark (R66, R68, R69). -/
def State.officeRelease (s : State) (r : RingNo) : State :=
  let x := s.ring r
  if x.heldFloor then s.setRing r { x with heldOffice := false }
  else if x.offer.isSome && !s.floorUp then s.setRing r { x with heldOffice := false, heldFloor := true }
  else s.leaveHeld r

def serveRelease (s : State) (n : Nat) : Served :=
  withRing s n (fun s r =>
    let x := s.ring r
    if x.state == .held && x.heldOffice then ringAnswer (s.officeRelease r).settleFloor r .ok
    else if x.holdPending then ringAnswer (s.setRing r { x with holdPending := false }) r .ok
    else ringAnswer s r .state)

/-! ## Lot commands (R72 to R74) -/

/-- The lot of a number, or NOT_FOUND (section 3.8), also for number 0, which no lot carries (log 8). -/
def withLot (s : State) (n : Nat) (k : Lot → Served) : Served :=
  match s.lot n with
  | none => refuse s .notFound
  | some l => k l

/-- MOVE (R72). -/
def serveMove (s : State) (n : Nat) : Served :=
  withLot s n (fun l =>
    match l.state with
    | .onClock => refuse s .state
    | .queued =>
      if (s.ring l.ring).queue.head? = some n then { status := .ok, result := [], state := s }
      else
        { status := .ok, result := [],
          state := s.modRing l.ring (fun x => { x with queue := x.queue.erase n }.pushFront n) })

/-- The effect of a WITHDRAW that has its claim (R73). -/
def State.withdraw (s : State) (n : Nat) (l : Lot) : State :=
  let s := (s.takeClaims 1).modRing l.ring (fun x => x.removeLot n)
  let s := s.returnCrates l
  (s.writeRecord (.withdrawn n l.boat l.remaining l.netRemaining .office)).dropLot n

/-- WITHDRAW (R73). -/
def serveWithdraw (s : State) (n : Nat) : Served :=
  inRun s (withLot s n (fun l =>
    match l.state with
    | .onClock => refuse s .state
    | .queued =>
      if !(s.canClaim 1) then refuse (s.latch .recordsFull (.ring l.ring.num)) .full
      else { status := .ok, result := be 2 s.queue.next, state := s.withdraw n l }))

/-- SET RESERVE (R74); a reserve of 0 is none (Table 12-6). -/
def serveReserve (s : State) (n price : Nat) : Served :=
  withLot s n (fun l =>
    if 99999 < price then refuse s .range
    else
      match l.state with
      | .onClock => refuse s .state
      | .queued =>
        { status := .ok, result := [],
          state := s.modLot n (fun l => { l with reserve := if price = 0 then none else some price }) })

/-! ## Ice commands (R112) -/

/-- What both responses carry (R112). -/
def State.iceBytes (s : State) : List Byte := s.screwBytes ++ be 1 s.ice.officeFloor ++ be 1 s.ice.effFloor

/-- SET FLOOR (R112). -/
def serveSetFloor (s : State) (lvl : Nat) : Served :=
  if 7 < lvl then { status := .range, result := s.iceBytes, state := s }
  else
    let s' := (s.setIce { s.ice with officeFloor := lvl }).arbiterDecide
    { status := .ok, result := s'.iceBytes, state := s' }

/-- The quay address of a chute number. -/
def State.chuteAddr (s : State) (n : Nat) : Option Nat :=
  (s.stations.find? (fun x => x.2.device.isChute && s.chuteNo x.1 == n)).map (·.1)

/-- CANCEL REQUEST (R112); the record number is absent where none was written. -/
def serveCancel (s : State) (n : Nat) : Served :=
  let refused (st : Status) : Served := { status := st, result := s.iceBytes ++ be 2 0, state := s }
  if !(within 1 n 6) then refused .badIndex
  else
    match s.chuteAddr n with
    | none => refused .notFound
    | some a =>
      match s.jobAt a with
      | none => refused .state
      | some d =>
        if d.state == .requested then
          let s' := s.endDispense a d 0 .cancelled
          { status := .ok, result := s'.iceBytes ++ be 2 s.queue.next, state := s' }
        else refused .state

/-! ## Crate pool commands (R136 to R138) -/

/-- What both responses carry of a type, and the record number or 0 (R136). -/
def State.poolBytes (s : State) (t record : Nat) : List Byte :=
  match s.crateTypes.find t with
  | none => []
  | some c => be 6 c.pool ++ be 6 c.store ++ be 6 c.shortfall ++ beInt 6 (s.holdings t) ++ be 2 record

/-- A pool command's refusal, with the type's figures where it has an entry (R136). -/
def poolRefused (s : State) (t : Nat) (st : Status) : Served := { status := st, result := s.poolBytes t 0, state := s }

/-- The type of a pool command (R136). -/
def withType (s : State) (t : Nat) (k : CrateType → Served) : Served :=
  if !(within 1 t 8) then refuse s .badIndex
  else
    match s.crateTypes.find t with
    | none => refuse s .notFound
    | some c => k c

/-- A pool command's effect: the counts set and the POOL record written with the command's claim (R136). -/
def State.setPool (s : State) (t : Nat) (c : CrateType) (cause : PoolCause) : State :=
  ({ s with crateTypes := s.crateTypes.set t c }.takeClaims 1).writeRecord (.pool t c.pool c.store c.shortfall cause)

def poolDone (s s' : State) (t : Nat) : Served := { status := .ok, result := s'.poolBytes t s.queue.next, state := s' }

/-- POOL ADJUST (R137). -/
def serveAdjust (s : State) (t : Nat) (n : Int) : Served :=
  withType s t (fun c =>
    let store := (c.store : Int) + n
    let pool := (c.pool : Int) + n
    if n = 0 || n < -30000 || 30000 < n || store < 0 || pool < 0 || 1000000 < pool then poolRefused s t .range
    else if !(s.canClaim 1) then poolRefused (s.latch .recordsFull (.type t)) t .full
    else
      let kept := min (storeBound : Int) store
      let c' := { c with pool := pool.toNat, store := kept.toNat, residue := c.residue + (store - kept) }
      poolDone s (s.setPool t c' .adjust) t)

/-- STOCKTAKE (R138). -/
def serveStocktake (s : State) (t counted : Nat) : Served :=
  withType s t (fun c =>
    let pool := (counted : Int) + s.holdings t
    if 1000000 < counted || pool < 0 || 1000000 < pool then poolRefused s t .range
    else if 0 < s.openSessions t then poolRefused s t .inUse
    else if !(s.canClaim 1) then poolRefused (s.latch .recordsFull (.type t)) t .full
    else
      let c' := { c with pool := pool.toNat, store := counted, shortfall := 0, residue := 0 }
      poolDone s (s.setPool t c' .stocktake) t)

/-! ## COLLECT (R147) -/

/-- How many of the oldest records, up to `n`, fit whole in a room. -/
def fitting : Nat → Nat → List Record → Nat
  | 0, _, _ => 0
  | _ + 1, _, [] => 0
  | n + 1, room, r :: rs => if room < r.bytes.length then 0 else fitting n (room - r.bytes.length) rs + 1

/-- The room of a COLLECT response for records: 120 bytes less the other fields' 11 (R147). With the 5 of the head and
2 of the record number, the occupied and the owed count take two each (log 32). -/
def collectRoom : Nat := 109

def serveCollect (s : State) (count : Nat) : Served :=
  if !(within 1 count 4) then refuse s .range
  else
    let k := fitting count collectRoom s.queue.records
    let s' := s.removeRecords k
    { status := .ok,
      result := (s.queue.records.take k).flatMap Record.bytes ++ be 2 s'.occupied ++ be 2 s'.queue.owed ++ be 2 s'.queue.next,
      state := s' }

/-! ## Poller, port and board commands (R154, R164, R176) -/

/-- RESUME POLL (R164). -/
def serveResume (s : State) : Served :=
  if s.poller.state == .listen then { status := .ok, result := [], state := s.resumePolling } else refuse s .state

/-- The port of a code (Table 12-6). -/
def lineOf : Nat → Option LineId
  | 1 => some .quay
  | 2 => some .floor
  | 3 => some .office
  | _ => none

def Port.counterBytes (p : Port) : List Byte :=
  be 2 p.cntF ++ be 2 p.cntC ++ be 2 p.cntL ++ be 2 p.cntO ++ be 2 p.cntB ++ [Config.code .lineCondition p.inBreak.toNat]

/-- CLEAR COUNTERS (R154); the floor condition is absent for the other ports. -/
def serveClear (s : State) (n : Nat) : Served :=
  match lineOf n with
  | none => refuse s .badIndex
  | some l =>
    let p := s.port l
    { status := .ok,
      result := p.counterBytes ++ [if l = .floor then s.floorLine.cond.byte else Config.absentCode .floorCondition],
      state := s.setPort l { p with cntF := 0, cntC := 0, cntL := 0, cntO := 0, cntB := 0 } }

/-- The numbers of a mask's bits, ascending: bit n − 1 for n. -/
def maskNumbers (width mask : Nat) : List Nat := ((List.range width).filter (fun i => mask.testBit i)).map (· + 1)

/-- The pending set after lines are added, ascending and each once (R175, R176). -/
def addLines (showing lines : List Nat) : List Nat :=
  [1, 2, 3, 4, 5, 6, 7, 8].filter (fun n => showing.contains n || lines.contains n)

/-- SHOW (R176): the pending set as the lines have joined it, before the transmitter decides (log 33). -/
def serveShow (s : State) (mask : Nat) : Served :=
  if mask = 0 then refuse s .range
  else
    let pending := addLines s.boards.showing (maskNumbers 8 mask)
    { status := .ok, result := be 1 (bitSet pending),
      state := { s with boards := { s.boards with showing := pending } }.floorDecide }

/-! ## Notice and time commands (R195, R196, R198) -/

/-- The kind and number of a first subject (R195). The kind list and the account numbers hold 0, so an absent kind or
number is all ones: both of a clear latch, and the number of the kind NONE (12, absent fields; log 14). -/
def Subject.bytes : Option Subject → List Byte
  | Option.none => ones 1 ++ ones 2
  | some Subject.none => be 1 0 ++ ones 2
  | some (.station n) => be 1 1 ++ be 2 n
  | some (.account n) => be 1 2 ++ be 2 n
  | some (.ring n) => be 1 3 ++ be 2 n
  | some (.type n) => be 1 4 ++ be 2 n
  | some (.chute n) => be 1 5 ++ be 2 n
  | some (.record n) => be 1 6 ++ be 2 n

def Latch16Cause.code : Option Latch16Cause → Nat
  | none => 0
  | some .floorErrors => 1
  | some .quayDropped => 2
  | some .answerDropped => 3

/-- A latch as NOTICE READ returns it (R195). -/
def State.latchBytes (s : State) (n : Nat) : List Byte :=
  let l := s.latchAt n
  be 1 n ++ be 1 (latchPriority n) ++ markByte l.pending ++ be 1 l.count ++ Subject.bytes l.subject ++ optStamp l.time
    ++ be 1 (Latch16Cause.code l.cause)

/-- NOTICE READ (R195). -/
def serveNoticeRead (s : State) (first count : Nat) : Served :=
  if !(within 1 first 16) then refuse s .badIndex
  else if !(within 1 count 7) then refuse s .range
  else
    let ns := latchNumbers.filter (fun n => first ≤ n && n < first + count)
    { status := .ok, result := ns.flatMap s.latchBytes ++ be 1 s.noticeLevel ++ stampBytes s.clock, state := s }

/-- Latches cleared (R196). -/
def State.clearLatches (s : State) (ns : List Nat) : State :=
  { s with latches := ns.foldl (fun t n => Table.erase t n) s.latches }

/-- NOTICE CLEAR (R196). -/
def serveNoticeClear (s : State) (set : Nat) : Served :=
  let ns := maskNumbers 16 set
  if ns = [] || 8 < ns.length then refuse s .range
  else { status := .ok, result := ns.flatMap s.latchBytes, state := s.clearLatches ns }

/-- TIME SET (R198). -/
def serveTimeSet (s : State) (tod day : Nat) : Served :=
  if 86399999 < tod then refuse s .range
  else
    { status := .ok, result := stampBytes s.clock ++ be 4 tod ++ be 2 day,
      state := { s with clock := { tod := tod, day := day } } }

/-! ## RUN and relay (R181, R190) -/

/-- A board slot takes its ring's content and becomes READY (R178). -/
def State.runSlot (s : State) (r : RingNo) : State :=
  s.setSlot r { (s.slot r) with content := some (s.boardContent r), readiness := .ready }

/-- The poller at RUN: POLLING with a roll-call, or BROKEN where the quay line is in BREAK (R166). -/
def State.startPoller (s : State) : State :=
  if s.quay.inBreak then
    s.setPoller { Poller.reset with state := .broken .polling, breakTimer := some (Timer.start s.missInterval) }
  else s.enterPolling

/-- RUN (R181). -/
def serveRun (s : State) : Served :=
  if s.hall.isNone || s.op == .run then refuse s .state
  else
    let s := { s with op := .run }.startPoller
    { status := .ok, result := [], state := ((((s.runSlot .r1).runSlot .r2).runSlot .r3).runSlot .r4).floorDecide }

/-- A relay (R161, R190). -/
def serveRelay (s : State) (f : Frame) : Served :=
  let a := f.dst.toNat
  if 118 < f.payload.length then refuse s .range
  else
    match s.station a with
    | none => refuse s .notFound
    | some st =>
      if s.poller.state != .polling || !st.enabled then refuse s .state
      else { status := .ok, result := [], state := s.placeCommand a (.relay f.kind f.payload) }

/-! ## RESTART (R191) -/

/-- The ends of RESTART whose order shows: answers of held stops, ICE records, CRATE records (R148, log 5). -/
inductive RestartEnd where
  | ring (r : RingNo)
  | chute (a : Nat)
  | gate (a : Nat)
  deriving DecidableEq, Repr

def State.restartEnd (s : State) : RestartEnd → State
  | .ring r => s.restartRing r
  | .chute a => s.restartChute a
  | .gate a => s.restartGate a

def Device.hasJob : Device → Bool
  | .chute _ c => c.job.isSome
  | _ => false
def Device.hasSession : Device → Bool
  | .gate _ g => g.session.isSome
  | _ => false

def State.jobAddrs (s : State) : List Nat := s.addrsWhere (fun st => st.device.hasJob)
def State.sessionAddrs (s : State) : List Nat := s.addrsWhere (fun st => st.device.hasSession)

/-- The ends whose order is free. -/
def State.restartEnds (s : State) : List RestartEnd :=
  (allRings.filter (fun r => (s.ring r).state == .resolving)).map .ring
    ++ s.jobAddrs.map .chute ++ s.sessionAddrs.map .gate

/-- The ice plant after RESTART (R118): the office floor level is kept. -/
def IcePlant.restart (p : IcePlant) : IcePlant :=
  { p with screw := .dry, latch := [], level := none, emptyFlag := none, low := false }

/-- All blocks end their work (R191). -/
def State.restartBlocks (s : State) : State :=
  let s := s.restartPoller
  let ends := s.restartEnds
  let (order, s) := State.order ends.length ends s
  let s := order.foldl State.restartEnd s
  let s := allRings.foldl State.restartRing s
  let s := (s.addrsWhere (fun st => st.device.isWeigh)).foldl State.restartChannel s
  { s with
    ice := s.ice.restart
    boards := { s.boards with slots := { a1 := BoardSlot.reset, a2 := BoardSlot.reset, a3 := BoardSlot.reset, a4 := BoardSlot.reset } }
    floor := { s.floor with rx := [] }
    op := .load }.floorDecide

/-- RESTART (R191): the numbers of ICE and CRATE records written, and the occupied count. Resolutions under way end
first (R61). Each of the three takes two bytes, though neither number passes 6 and the occupied count does not pass 128:
Table 12-5 names none of them. DESIGN CHOICE (log 32). -/
def serveRestart (s : State) : Served :=
  let s := s.finishResolutions
  let s' := s.restartBlocks
  { status := .ok, result := be 2 s.jobAddrs.length ++ be 2 s.sessionAddrs.length ++ be 2 s'.occupied,
    state := s' }

end Sys2Proof.Machine
end

