-- ==== Sys2Proof/Machine/LoadSteps.lean ====
section
/-! DEFINITION. The meanings of LOAD, one per table (R182, Table 12-7), and of a LOAD that names no loadable table. -/

namespace Sys2Proof.Machine

/-- The frame of a LOAD: kind 22, the table code and the body (Table 12-6). -/
def loadFrame (src code : Byte) (body : List Byte) : Frame := requestFrame src 0x22 (code :: body)

/-- LOAD of HALL (R182, R187). -/
def execLoadHall (src : Byte) (body : List Byte) (s : State) : Result :=
  .next (s.serve (loadFrame src 1 body) (serveLoad writeHall (readLoad 31 body)))

/-- LOAD of STATIONS (R182, R183, R184). -/
def execLoadStations (src : Byte) (body : List Byte) (s : State) : Result :=
  .next (s.serve (loadFrame src 2 body) (serveLoadStations body))

/-- LOAD of SPECIES (R182, R185). -/
def execLoadSpecies (src : Byte) (body : List Byte) (s : State) : Result :=
  .next (s.serve (loadFrame src 3 body) (serveLoad writeSpecies (readLoad 8 body)))

/-- LOAD of PROFILES (R182, R185). -/
def execLoadProfiles (src : Byte) (body : List Byte) (s : State) : Result :=
  .next (s.serve (loadFrame src 4 body) (serveLoad writeProfile (readLoad 18 body)))

/-- LOAD of CRATES (R182, R121 to R123). -/
def execLoadCrates (src : Byte) (body : List Byte) (s : State) : Result :=
  .next (s.serve (loadFrame src 5 body) (serveLoad writeCrate (readLoad 7 body)))

/-- LOAD of KEYPADS (R182, R186). -/
def execLoadKeypads (src : Byte) (body : List Byte) (s : State) : Result :=
  .next (s.serve (loadFrame src 6 body) (serveLoad writeKeypad (readLoad 5 body)))

/-- LOAD of ACCOUNTS (R182, R19 to R21). -/
def execLoadAccounts (src : Byte) (body : List Byte) (s : State) : Result :=
  .next (s.serve (loadFrame src 7 body) (serveLoad writeAccount (readLoad 14 body)))

/-- LOAD of BOARD TEXT (R182, R186). -/
def execLoadBoardText (src : Byte) (body : List Byte) (s : State) : Result :=
  .next (s.serve (loadFrame src 8 body) (serveLoad writeText (readLoadText body)))

/-- A LOAD without a whole head is RANGE; one of LOTS, HOLDS or no table is BAD_TABLE (R49, R182, R202). The response
gives the start index, for no entry was written (log 7). -/
def serveNotLoadable (payload : List Byte) (s : State) : Served :=
  if payload.length < 3 then refuse s .range else { status := .badTable, result := be 2 (fieldAt payload 1 2), state := s }

/-- LOAD_NOT_LOADABLE (R182, R202). A payload that names a loadable table is another row's. -/
def execLoadNotLoadable (src : Byte) (payload : List Byte) (s : State) : Result :=
  .next (if payload.head?.any loadableCode then s
    else s.serve (requestFrame src 0x22 payload) (serveNotLoadable payload))

end Sys2Proof.Machine
end

