-- ==== Sys2Proof/Machine/OfficeSteps.lean ====
section
/-! DEFINITION. The meanings of the management commands (Tables 10-5, 12-6) and of the other office frames
(R180, R190). -/

namespace Sys2Proof.Machine

/-- RUN (R181). -/
def execRun (src : Byte) (payload : List Byte) (s : State) : Result :=
  .next (s.serve (requestFrame src 0x20 payload) (fun s => withPayload (readNothing payload) s (fun _ => serveRun s)))

/-- RESTART (R191). -/
def execRestart (src : Byte) (payload : List Byte) (s : State) : Result :=
  .next (s.serve (requestFrame src 0x21 payload) (fun s => withPayload (readNothing payload) s (fun _ => serveRestart s)))

/-- STOP of an account (R13). -/
def execStopAccount (src : Byte) (payload : List Byte) (s : State) : Result :=
  .next (s.serve (requestFrame src 0x24 payload) (fun s => withPayload (readOne 2 payload) s (fun n => serveStop s n)))

/-- OPEN of an account (R14). -/
def execOpenAccount (src : Byte) (payload : List Byte) (s : State) : Result :=
  .next (s.serve (requestFrame src 0x25 payload) (fun s => withPayload (readOne 2 payload) s (fun n => serveOpen s n)))

/-- TRANSFER (R15). -/
def execTransfer (src : Byte) (payload : List Byte) (s : State) : Result :=
  .next (s.serve (requestFrame src 0x26 payload) (fun s => withPayload (readTransfer payload) s (fun x => serveTransfer s x.1 x.2.1 x.2.2)))

/-- SETTLE (R16). -/
def execSettle (src : Byte) (payload : List Byte) (s : State) : Result :=
  .next (s.serve (requestFrame src 0x27 payload) (fun s => withPayload (readOne 2 payload) s (fun n => serveSettle s n)))

/-- PLACE HOLD (R17). -/
def execPlaceHold (src : Byte) (payload : List Byte) (s : State) : Result :=
  .next (s.serve (requestFrame src 0x28 payload) (fun s => withPayload (readTwo 2 4 payload) s (fun x => servePlaceHold s x.1 x.2)))

/-- RELEASE HOLD (R18). -/
def execReleaseHold (src : Byte) (payload : List Byte) (s : State) : Result :=
  .next (s.serve (requestFrame src 0x29 payload) (fun s => withPayload (readOne 1 payload) s (fun i => serveReleaseHold s i)))

/-- START of a ring (R70). -/
def execStartRing (src : Byte) (payload : List Byte) (s : State) : Result :=
  .next (s.serve (requestFrame src 0x2A payload) (fun s => withPayload (readOne 1 payload) s (fun n => serveStart s n)))

/-- STOP of a ring (R71). -/
def execStopRing (src : Byte) (payload : List Byte) (s : State) : Result :=
  .next (s.serve (requestFrame src 0x2B payload) (fun s => withPayload (readOne 1 payload) s (fun n => serveStopRing s n)))

/-- HOLD (R67). -/
def execHold (src : Byte) (payload : List Byte) (s : State) : Result :=
  .next (s.serve (requestFrame src 0x2C payload) (fun s => withPayload (readOne 1 payload) s (fun n => serveHold s n)))

/-- RELEASE (R68). -/
def execRelease (src : Byte) (payload : List Byte) (s : State) : Result :=
  .next (s.serve (requestFrame src 0x2D payload) (fun s => withPayload (readOne 1 payload) s (fun n => serveRelease s n)))

/-- WITHDRAW (R73). -/
def execWithdraw (src : Byte) (payload : List Byte) (s : State) : Result :=
  .next (s.serve (requestFrame src 0x2E payload) (fun s => withPayload (readOne 2 payload) s (fun n => serveWithdraw s n)))

/-- MOVE (R72). -/
def execMoveLot (src : Byte) (payload : List Byte) (s : State) : Result :=
  .next (s.serve (requestFrame src 0x2F payload) (fun s => withPayload (readOne 2 payload) s (fun n => serveMove s n)))

/-- SET RESERVE (R74). -/
def execSetReserve (src : Byte) (payload : List Byte) (s : State) : Result :=
  .next (s.serve (requestFrame src 0x30 payload) (fun s => withPayload (readTwo 2 3 payload) s (fun x => serveReserve s x.1 x.2)))

/-- SET FLOOR (R112). -/
def execSetFloor (src : Byte) (payload : List Byte) (s : State) : Result :=
  .next (s.serve (requestFrame src 0x31 payload) (fun s => withPayload (readOne 1 payload) s (fun n => serveSetFloor s n)))

/-- CANCEL REQUEST (R112). -/
def execCancelRequest (src : Byte) (payload : List Byte) (s : State) : Result :=
  .next (s.serve (requestFrame src 0x32 payload) (fun s => withPayload (readOne 1 payload) s (fun n => serveCancel s n)))

/-- POOL ADJUST (R137). -/
def execPoolAdjust (src : Byte) (payload : List Byte) (s : State) : Result :=
  .next (s.serve (requestFrame src 0x33 payload) (fun s => withPayload (readAdjust payload) s (fun x => serveAdjust s x.1 x.2)))

/-- STOCKTAKE (R138). -/
def execStocktake (src : Byte) (payload : List Byte) (s : State) : Result :=
  .next (s.serve (requestFrame src 0x34 payload) (fun s => withPayload (readTwo 1 4 payload) s (fun x => serveStocktake s x.1 x.2)))

/-- COLLECT (R147). -/
def execCollect (src : Byte) (payload : List Byte) (s : State) : Result :=
  .next (s.serve (requestFrame src 0x35 payload) (fun s => withPayload (readOne 1 payload) s (fun n => serveCollect s n)))

/-- RESUME POLL (R164). -/
def execResumePoll (src : Byte) (payload : List Byte) (s : State) : Result :=
  .next (s.serve (requestFrame src 0x36 payload) (fun s => withPayload (readNothing payload) s (fun _ => serveResume s)))

/-- CLEAR COUNTERS (R154). -/
def execClearCounters (src : Byte) (payload : List Byte) (s : State) : Result :=
  .next (s.serve (requestFrame src 0x37 payload) (fun s => withPayload (readOne 1 payload) s (fun n => serveClear s n)))

/-- SHOW (R176). -/
def execShowLines (src : Byte) (payload : List Byte) (s : State) : Result :=
  .next (s.serve (requestFrame src 0x38 payload) (fun s => withPayload (readOne 1 payload) s (fun m => serveShow s m)))

/-- NOTICE READ (R195). -/
def execNoticeRead (src : Byte) (payload : List Byte) (s : State) : Result :=
  .next (s.serve (requestFrame src 0x39 payload) (fun s => withPayload (readTwo 1 1 payload) s (fun x => serveNoticeRead s x.1 x.2)))

/-- NOTICE CLEAR (R196). -/
def execNoticeClear (src : Byte) (payload : List Byte) (s : State) : Result :=
  .next (s.serve (requestFrame src 0x3A payload) (fun s => withPayload (readOne 2 payload) s (fun m => serveNoticeClear s m)))

/-- TIME SET (R198). -/
def execTimeSet (src : Byte) (payload : List Byte) (s : State) : Result :=
  .next (s.serve (requestFrame src 0x3B payload) (fun s => withPayload (readTwo 4 2 payload) s (fun x => serveTimeSet s x.1 x.2)))

/-- RELAY (R190): a frame to a quay address. -/
def execRelay (f : Frame) (s : State) : Result :=
  .next (if isStation f.dst.toNat then s.serve f (fun s => serveRelay s f) else s)

/-- UNKNOWN_REQUEST (R180): a frame to the part of a kind that is no request. -/
def execUnknownRequest (f : Frame) (s : State) : Result :=
  .next (if f.dst == 0 && !(isRequestKind f.kind) then s.serve f (fun s => refuse s .unknownRequest) else s)

/-- BAD_DESTINATION (R180): a frame to an address above 30. -/
def execBadDestination (f : Frame) (s : State) : Result :=
  .next (if 30 < f.dst.toNat then s.serve f (fun s => refuse s .badIndex) else s)

end Sys2Proof.Machine
end

