-- ==== Sys2Proof/Machine/ReadSteps.lean ====
section
/-! DEFINITION. The meanings of READ, one per table (R188), and of a READ of a table that does not exist. -/

namespace Sys2Proof.Machine

/-- The frame of a READ: kind 23, the table code and the body (Table 12-6). -/
def readFrame (src code : Byte) (body : List Byte) : Frame := requestFrame src 0x23 (code :: body)

/-- READ of HALL (R188, R187). -/
def execReadHall (src : Byte) (body : List Byte) (s : State) : Result :=
  .next (s.serve (readFrame src 1 body) (serveRead 1 1 hallEntry body))

/-- READ of STATIONS (R188, R24, R96, R125). -/
def execReadStations (src : Byte) (body : List Byte) (s : State) : Result :=
  .next (s.serve (readFrame src 2 body) (serveRead 1 30 stationEntry body))

/-- READ of SPECIES (R188, R185). -/
def execReadSpecies (src : Byte) (body : List Byte) (s : State) : Result :=
  .next (s.serve (readFrame src 3 body) (serveRead 1 64 speciesEntry body))

/-- READ of PROFILES (R188, R185). -/
def execReadProfiles (src : Byte) (body : List Byte) (s : State) : Result :=
  .next (s.serve (readFrame src 4 body) (serveRead 1 16 profileEntry body))

/-- READ of CRATES (R188, R124). -/
def execReadCrates (src : Byte) (body : List Byte) (s : State) : Result :=
  .next (s.serve (readFrame src 5 body) (serveRead 1 8 crateEntry body))

/-- READ of KEYPADS (R188, R167). -/
def execReadKeypads (src : Byte) (body : List Byte) (s : State) : Result :=
  .next (s.serve (readFrame src 6 body) (serveRead 1 64 keypadEntry body))

/-- READ of ACCOUNTS (R188, R22). -/
def execReadAccounts (src : Byte) (body : List Byte) (s : State) : Result :=
  .next (s.serve (readFrame src 7 body) (serveRead 0 511 accountEntry body))

/-- READ of BOARD TEXT (R188, R175). -/
def execReadBoardText (src : Byte) (body : List Byte) (s : State) : Result :=
  .next (s.serve (readFrame src 8 body) (serveRead 1 8 textEntry body))

/-- READ of LOTS (R188, R49). -/
def execReadLots (src : Byte) (body : List Byte) (s : State) : Result :=
  .next (s.serve (readFrame src 9 body) (serveReadLots body))

/-- READ of HOLDS (R188, R10). -/
def execReadHolds (src : Byte) (body : List Byte) (s : State) : Result :=
  .next (s.serve (readFrame src 10 body) (serveRead 1 16 holdEntry body))

/-- A READ of another length than 4 is RANGE, and one of no table BAD_TABLE (R188, R202). -/
def serveBadTable (payload : List Byte) (s : State) : Served :=
  if payload.length ≠ 4 then refuse s .range else refuse s .badTable

/-- READ_BAD_TABLE (R188, R202). A payload that names a table is another row's. -/
def execReadBadTable (src : Byte) (payload : List Byte) (s : State) : Result :=
  .next (if payload.head?.any readableCode then s
    else s.serve (requestFrame src 0x23 payload) (serveBadTable payload))

end Sys2Proof.Machine
end

