-- ==== Sys2Proof/Machine/LineSteps.lean ====
section
/-! DEFINITION. The meanings of the part's own steps and of the line ports' events: POWER_ON to FLOOR_SILENCE; among them
the taking of office frames by the management unit. -/

namespace Sys2Proof.Machine

/-- POWER_ON (R181): every block in its power-on state. The waiting commands and the counter of free choices are the
model's own and stay (log 26). -/
def execPowerOn (s : State) : Result := .next { State.reset with pending := s.pending, choices := s.choices }

/-- HALL_TICK (R197, R199). -/
def execHallTick (s : State) : Result := .next s.tick

/-! ## The office frames (R179, R180) -/

/-- A frame of kind LOAD to the part, by the table its payload names (Table 12-6; spec/12, 12.5). -/
def serveLoadFrame (f : Frame) (s : State) : Result :=
  match f.payload with
  | [] => execLoadNotLoadable f.src f.payload s
  | code :: body =>
    match code.toNat with
    | 1 => execLoadHall f.src body s
    | 2 => execLoadStations f.src body s
    | 3 => execLoadSpecies f.src body s
    | 4 => execLoadProfiles f.src body s
    | 5 => execLoadCrates f.src body s
    | 6 => execLoadKeypads f.src body s
    | 7 => execLoadAccounts f.src body s
    | 8 => execLoadBoardText f.src body s
    | _ => execLoadNotLoadable f.src f.payload s

/-- A frame of kind READ to the part, by the table its payload names (Table 12-6; spec/12, 12.5). -/
def serveReadFrame (f : Frame) (s : State) : Result :=
  match f.payload with
  | [] => execReadBadTable f.src f.payload s
  | code :: body =>
    match code.toNat with
    | 1 => execReadHall f.src body s
    | 2 => execReadStations f.src body s
    | 3 => execReadSpecies f.src body s
    | 4 => execReadProfiles f.src body s
    | 5 => execReadCrates f.src body s
    | 6 => execReadKeypads f.src body s
    | 7 => execReadAccounts f.src body s
    | 8 => execReadBoardText f.src body s
    | 9 => execReadLots f.src body s
    | 10 => execReadHolds f.src body s
    | _ => execReadBadTable f.src f.payload s

/-- A frame to the part, by its kind (Table 12-2, R180). -/
def serveRequestFrame (f : Frame) (s : State) : Result :=
  match f.kind.toNat with
  | 0x20 => execRun f.src f.payload s
  | 0x21 => execRestart f.src f.payload s
  | 0x22 => serveLoadFrame f s
  | 0x23 => serveReadFrame f s
  | 0x24 => execStopAccount f.src f.payload s
  | 0x25 => execOpenAccount f.src f.payload s
  | 0x26 => execTransfer f.src f.payload s
  | 0x27 => execSettle f.src f.payload s
  | 0x28 => execPlaceHold f.src f.payload s
  | 0x29 => execReleaseHold f.src f.payload s
  | 0x2A => execStartRing f.src f.payload s
  | 0x2B => execStopRing f.src f.payload s
  | 0x2C => execHold f.src f.payload s
  | 0x2D => execRelease f.src f.payload s
  | 0x2E => execWithdraw f.src f.payload s
  | 0x2F => execMoveLot f.src f.payload s
  | 0x30 => execSetReserve f.src f.payload s
  | 0x31 => execSetFloor f.src f.payload s
  | 0x32 => execCancelRequest f.src f.payload s
  | 0x33 => execPoolAdjust f.src f.payload s
  | 0x34 => execStocktake f.src f.payload s
  | 0x35 => execCollect f.src f.payload s
  | 0x36 => execResumePoll f.src f.payload s
  | 0x37 => execClearCounters f.src f.payload s
  | 0x38 => execShowLines f.src f.payload s
  | 0x39 => execNoticeRead f.src f.payload s
  | 0x3A => execNoticeClear f.src f.payload s
  | 0x3B => execTimeSet f.src f.payload s
  | _ => execUnknownRequest f s

/-- An office frame at the management unit, judged by its destination before anything else (R180): the effect is that
of the row of the table that stands for its arrival. -/
def serveFrame (f : Frame) (s : State) : Result :=
  if f.dst == 0 then serveRequestFrame f s
  else if isStation f.dst.toNat then execRelay f s
  else execBadDestination f s

/-- An office frame's end: a frame with a condition is counted, with no notice (R150); one that passes has arrived, and
the management unit takes it at once where no response waits in the transmit stage (R149, R179). -/
def officeFrameEnd (wire : List Byte) (bad : Bool) (s : State) : Result :=
  let c := judge s.office wire bad
  if c.any then .next { s with office := s.office.count c } else serveFrame (frameOf (unescape wire).1) s

/-- The end of a frame on the office line: the waiting response goes onto it, and with the stage empty the unit takes the
frame at the front of the receive stage (R151, R179). -/
def officeSent (s : State) : Result :=
  let s := { s with office := s.office.sent }
  match s.office.rx with
  | [] => .next s
  | f :: _ => serveFrame f s

/-- FRAME_END (R150) on a line. -/
def execFrameEnd (line : LineId) (wire : List Byte) (bad : Bool) (s : State) : Result :=
  match line with
  | .quay => .next (s.quayFrameEnd wire bad)
  | .floor => .next (s.floorFrameEnd wire bad)
  | .office => officeFrameEnd wire bad s

/-- LINE_BREAK (R152): the line has been spacing for `spacing` ms; nothing comes of it within the break time, in BREAK
already, or while HALL is absent. -/
def execLineBreak (line : LineId) (spacing : Nat) (cut : Bool) (s : State) : Result :=
  .next (if s.entersBreak line spacing then
      match line with
      | .quay => if cut then s.quayBreakCut else s.quayBreak
      | .floor => s.floorBreak cut
      | .office => s.officeBreak cut
    else s)

/-- BREAK_END (R152, R153, R165): a valid start flag on a line in BREAK. -/
def execBreakEnd (line : LineId) (s : State) : Result :=
  .next (if (s.port line).inBreak then
      match line with
      | .quay => { s with quay := { s.quay with inBreak := false } }.leaveBroken
      | .floor => s.floorBreakEnd
      | .office => { s with office := { s.office with inBreak := false } }
    else s)

/-- FRAME_SENT (R151): the frame on the line has been sent to its end flag. -/
def execFrameSent (line : LineId) (s : State) : Result :=
  if (s.port line).onLine.isSome then
    match line with
    | .quay => .next s.quaySent
    | .floor => .next { s with floor := s.floor.sent }.floorDecide
    | .office => officeSent s
  else .next s

/-- FLOOR_SILENCE (R153): the silence timer has reached the floor silence limit. -/
def execFloorSilence (s : State) : Result :=
  .next (if s.floorLine.cond == .up && timerDue s.floorLine.silence then s.floorDown .silent else s)

end Sys2Proof.Machine
end

