-- ==== Sys2Proof/Machine/PlantSteps.lean ====
section
/-! DEFINITION. The meanings of the weigh channels', the ice arbiter's and the gates' own steps: CAPTURE_TIMEOUT,
SCREW_GRANT, ICE_WAIT_TIMEOUT, GATE_IDLE_TIMEOUT. -/

namespace Sys2Proof.Machine

/-- CAPTURE_TIMEOUT (R40). -/
def execCaptureTimeout (station : Nat) (s : State) : Result := .next (s.draftTimeout station)

/-- SCREW_GRANT (R103, R104): the arbiter decides with the screw IDLE. Each cancelling takes one chute from the latch
list, so the list's length bounds the decisions (log 19). -/
def execScrewGrant (s : State) : Result := .next (State.grantBest (s.ice.latch.length + 1) s)

/-- The ice wait limit's expiry at a chute (R111). -/
def State.iceTimeout (s : State) (a : Nat) : State :=
  match s.jobAt a with
  | none => s
  | some d => if d.state == .requested && timerDue d.wait then s.endDispense a d 0 .timeout else s

/-- ICE_WAIT_TIMEOUT (R111). -/
def execIceWaitTimeout (station : Nat) (s : State) : Result := .next (s.iceTimeout station)

/-- The gate idle time's expiry at a gate; the idle timers are held in LISTEN (R131, R135). -/
def State.gateTimeout (s : State) (a : Nat) : State :=
  match s.gateAt a with
  | none => s
  | some (_, g) =>
    match g.session with
    | none => s
    | some x => if s.poller.state != .listen && x.idle.due then s.closeGate a g x .idle else s

/-- GATE_IDLE_TIMEOUT (R131). -/
def execGateIdleTimeout (station : Nat) (s : State) : Result := .next (s.gateTimeout station)

end Sys2Proof.Machine
end

