-- ==== Sys2Proof/Machine/QuaySteps.lean ====
section
/-! DEFINITION. The meanings of the quay poller's steps: CYCLE_TIMER_WRAP to BREAK_TIMER_EXPIRY. -/

namespace Sys2Proof.Machine

/-- The wrap of the cycle timer: a cycle starts, or a start is marked due (R156). -/
def State.cycleWrap (s : State) (t : Timer) : State :=
  let s := s.setPoller { s.poller with cycleTimer := some (t.wrap s.par.cyclePeriod) }
  if s.poller.cycle.isNone then s.beginCycle false else s.setPoller { s.poller with startDue := true }

/-- CYCLE_TIMER_WRAP (R156): taken in POLLING when the timer has reached its period. -/
def execCycleTimerWrap (s : State) : Result :=
  .next (match s.poller.state, s.poller.cycleTimer with
    | .polling, some t => if t.due then s.cycleWrap t else s
    | _, _ => s)

/-- The reply wait in progress has reached the reply timeout (R157). -/
def State.replyDue (s : State) : Bool :=
  match s.poller.state, s.poller.poll with
  | .polling, some p => match p.phase with
    | .awaiting t => t.due
    | _ => false
  | _, _ => false

/-- REPLY_TIMEOUT (R157). -/
def execReplyTimeout (s : State) : Result := .next (if s.replyDue then s.waitMissed.purgeQuay else s)

/-- QUAY_REPLY (R157): the valid reply of the polled station, or a frame the poller discards, leaves the stage. -/
def execQuayReply (f : Frame) (s : State) : Result :=
  .next (match s.quay.take f with
    | none => s
    | some q =>
      match s.quayVerdict f with
      | .reply a => ({ s with quay := q }.takeReply a f.payload).purgeQuay
      | .discard => { s with quay := q }.purgeQuay
      | .foreign => s
      | .heard _ => s)

/-- FOREIGN_POLL (R162): another master drives the line; in LISTEN, OFF and BROKEN it changes nothing. -/
def execForeignPoll (f : Frame) (s : State) : Result :=
  .next (match s.quay.take f with
    | none => s
    | some q =>
      match s.quayVerdict f with
      | .foreign => ({ s with quay := q }.enterListen f.src.toNat).purgeQuay
      | .discard => { s with quay := q }.purgeQuay
      | .reply _ => s
      | .heard _ => s)

/-- HEARD_REPLY (R163): a reply heard in LISTEN. -/
def execHeardReply (f : Frame) (s : State) : Result :=
  .next (match s.quay.take f with
    | none => s
    | some q =>
      match s.quayVerdict f with
      | .heard a => ({ s with quay := q }.hearReply a f.payload).purgeQuay
      | .discard => { s with quay := q }.purgeQuay
      | .reply _ => s
      | .foreign => s)

/-- An ONLINE station heard no more recently than the interval (R163, log 10). -/
def State.unheard (s : State) (a : Nat) : Bool :=
  match s.station a with
  | none => false
  | some st => s.poller.state == .listen && st.live == .online && s.missInterval ≤ st.age

/-- HEARING_EXPIRY (R163). -/
def execHearingExpiry (station : Nat) (s : State) : Result :=
  .next (if s.unheard station then s.stationLost station else s)

/-- The poller is in BROKEN. -/
def PollerState.isBroken : PollerState → Bool
  | .broken _ => true
  | .off => false
  | .polling => false
  | .listen => false

/-- BREAK_TIMER_EXPIRY (R165). -/
def execBreakTimerExpiry (s : State) : Result :=
  .next (if s.poller.state.isBroken && timerDue s.poller.breakTimer then s.breakTimedOut else s)

end Sys2Proof.Machine
end

