-- ==== Sys2Proof/Machine/RingSteps.lean ====
section
/-! DEFINITION. The meanings of the floor routing's and the rings' own steps: FLOOR_STOP to AFTER_SALE_EXPIRY, and
PACE_EXPIRY. -/

namespace Sys2Proof.Machine

/-- A STOP frame taken by the routing: its keypad, ring and crates wanted, or the notice of a wrong length
(R168, R201). -/
def State.floorStop (s : State) (f : Frame) : State :=
  if f.payload.length = 3 then
    (s.routeStop (fieldAt f.payload 0 1) (fieldAt f.payload 1 1) (fieldAt f.payload 2 1)).settleFloor
  else s.latchCause .floorErrors .none (some .floorErrors)

/-- FLOOR_STOP (R168). A frame that passes an empty stage is heard as it arrives (R153, log 3). -/
def execFloorStop (f : Frame) (s : State) : Result :=
  .next (if isStopFrame f then
      match s.floor.take f with
      | none => s
      | some p =>
        let s := if s.floor.rx.isEmpty then s.floorHeard else { s with floor := p }
        (s.floorStop f).purgeFloor
    else s)

/-- OFFER_START (R51 to R54): one attempt of a ring to start an offer. -/
def execOfferStart (ring : RingNo) (s : State) : Result :=
  .next (if (s.ring ring).startDue then (s.attemptOffer ring).settleFloor else s)

/-- A ring in LEAD_IN asks again for its missing claims, and descends where that ends its stall (R55). -/
def State.topUp (s : State) (r : RingNo) : State :=
  let s := s.askTopUp r
  if (s.ring r).stall == .claims && (s.ring r).claims == 2 then s.modRing r Ring.descend else s

/-- CLAIM_TOP_UP (R55). -/
def execClaimTopUp (ring : RingNo) (s : State) : Result :=
  .next (if (s.ring ring).state == .leadIn && (s.ring ring).claims < 2 then (s.topUp ring).settleFloor else s)

/-- PAUSE_EXPIRY (R55). -/
def execPauseExpiry (ring : RingNo) (s : State) : Result :=
  .next (if (s.ring ring).state == .leadIn && timerDue (s.ring ring).timer then (s.pauseOver ring).settleFloor else s)

/-- The price after a step: whole, or down to the effective floor (R56). -/
def Offer.step (o : Offer) : Offer := { o with price := max (o.price - o.profile.step) o.effFloor }

/-- A wrap of the step timer: the price steps, or the offer has run out (R56 to R58). -/
def State.stepWrap (s : State) (r : RingNo) (o : Offer) (t : Timer) : State :=
  if o.price = o.effFloor then s.runOut r o
  else s.modRing r (fun x => { x with offer := some o.step, timer := some (t.wrap o.profile.interval) })

/-- STEP_WRAP (R56): taken in DESCENDING when the step timer has reached the interval. -/
def execStepWrap (ring : RingNo) (s : State) : Result :=
  .next (match (s.ring ring).state, (s.ring ring).offer, (s.ring ring).timer with
    | .descending, some o, some t => if t.due then (s.stepWrap ring o t).settleFloor else s
    | _, _, _ => s)

/-- RESOLVE_EXPIRY (R61 to R65). -/
def execResolveExpiry (ring : RingNo) (s : State) : Result :=
  .next (match (s.ring ring).state, (s.ring ring).offer with
    | .resolving, some o => if timerDue (s.ring ring).timer then (s.resolve ring o).settleFloor else s
    | _, _ => s)

/-- AFTER_SALE_EXPIRY (R64, R67). -/
def execAfterSaleExpiry (ring : RingNo) (s : State) : Result :=
  .next (if (s.ring ring).state == .afterSale && timerDue (s.ring ring).timer then
      (s.afterSaleOver ring).settleFloor
    else s)

/-- The slot after the expiry of its pace timer (R173). -/
def BoardSlot.paceOver (b : BoardSlot) : BoardSlot :=
  { b with pace := none, readiness := if b.readiness == .paced then .ready else b.readiness }

/-- PACE_EXPIRY (R173). -/
def execPaceExpiry (ring : RingNo) (s : State) : Result :=
  .next (if timerDue (s.slot ring).pace then (s.setSlot ring (s.slot ring).paceOver).floorDecide else s)

end Sys2Proof.Machine
end

