-- ==== Sys2Proof/Machine/Dispatch.lean ====
section
/-! DEFINITION. One arm per command: each a direct call of its meaning. -/

namespace Sys2Proof.Machine

/-- The effect of a command. -/
def exec (i : Instr) (s : State) : Host.Outcome State Fault Refusal :=
  match i with
  | .powerOn => Sys2Proof.Machine.execPowerOn s
  | .hallTick => Sys2Proof.Machine.execHallTick s
  | .frameEnd line wire bad => Sys2Proof.Machine.execFrameEnd line wire bad s
  | .lineBreak line spacing cut => Sys2Proof.Machine.execLineBreak line spacing cut s
  | .breakEnd line => Sys2Proof.Machine.execBreakEnd line s
  | .frameSent line => Sys2Proof.Machine.execFrameSent line s
  | .floorSilence => Sys2Proof.Machine.execFloorSilence s
  | .cycleTimerWrap => Sys2Proof.Machine.execCycleTimerWrap s
  | .replyTimeout => Sys2Proof.Machine.execReplyTimeout s
  | .quayReply f => Sys2Proof.Machine.execQuayReply f s
  | .foreignPoll f => Sys2Proof.Machine.execForeignPoll f s
  | .heardReply f => Sys2Proof.Machine.execHeardReply f s
  | .hearingExpiry station => Sys2Proof.Machine.execHearingExpiry station s
  | .breakTimerExpiry => Sys2Proof.Machine.execBreakTimerExpiry s
  | .captureTimeout station => Sys2Proof.Machine.execCaptureTimeout station s
  | .floorStop f => Sys2Proof.Machine.execFloorStop f s
  | .offerStart ring => Sys2Proof.Machine.execOfferStart ring s
  | .claimTopUp ring => Sys2Proof.Machine.execClaimTopUp ring s
  | .pauseExpiry ring => Sys2Proof.Machine.execPauseExpiry ring s
  | .stepWrap ring => Sys2Proof.Machine.execStepWrap ring s
  | .resolveExpiry ring => Sys2Proof.Machine.execResolveExpiry ring s
  | .afterSaleExpiry ring => Sys2Proof.Machine.execAfterSaleExpiry ring s
  | .screwGrant => Sys2Proof.Machine.execScrewGrant s
  | .iceWaitTimeout station => Sys2Proof.Machine.execIceWaitTimeout station s
  | .gateIdleTimeout station => Sys2Proof.Machine.execGateIdleTimeout station s
  | .paceExpiry ring => Sys2Proof.Machine.execPaceExpiry ring s
  | .run src payload => Sys2Proof.Machine.execRun src payload s
  | .restart src payload => Sys2Proof.Machine.execRestart src payload s
  | .loadHall src body => Sys2Proof.Machine.execLoadHall src body s
  | .loadStations src body => Sys2Proof.Machine.execLoadStations src body s
  | .loadSpecies src body => Sys2Proof.Machine.execLoadSpecies src body s
  | .loadProfiles src body => Sys2Proof.Machine.execLoadProfiles src body s
  | .loadCrates src body => Sys2Proof.Machine.execLoadCrates src body s
  | .loadKeypads src body => Sys2Proof.Machine.execLoadKeypads src body s
  | .loadAccounts src body => Sys2Proof.Machine.execLoadAccounts src body s
  | .loadBoardText src body => Sys2Proof.Machine.execLoadBoardText src body s
  | .loadNotLoadable src payload => Sys2Proof.Machine.execLoadNotLoadable src payload s
  | .readHall src body => Sys2Proof.Machine.execReadHall src body s
  | .readStations src body => Sys2Proof.Machine.execReadStations src body s
  | .readSpecies src body => Sys2Proof.Machine.execReadSpecies src body s
  | .readProfiles src body => Sys2Proof.Machine.execReadProfiles src body s
  | .readCrates src body => Sys2Proof.Machine.execReadCrates src body s
  | .readKeypads src body => Sys2Proof.Machine.execReadKeypads src body s
  | .readAccounts src body => Sys2Proof.Machine.execReadAccounts src body s
  | .readBoardText src body => Sys2Proof.Machine.execReadBoardText src body s
  | .readLots src body => Sys2Proof.Machine.execReadLots src body s
  | .readHolds src body => Sys2Proof.Machine.execReadHolds src body s
  | .stopAccount src payload => Sys2Proof.Machine.execStopAccount src payload s
  | .openAccount src payload => Sys2Proof.Machine.execOpenAccount src payload s
  | .transfer src payload => Sys2Proof.Machine.execTransfer src payload s
  | .settle src payload => Sys2Proof.Machine.execSettle src payload s
  | .placeHold src payload => Sys2Proof.Machine.execPlaceHold src payload s
  | .releaseHold src payload => Sys2Proof.Machine.execReleaseHold src payload s
  | .startRing src payload => Sys2Proof.Machine.execStartRing src payload s
  | .stopRing src payload => Sys2Proof.Machine.execStopRing src payload s
  | .hold src payload => Sys2Proof.Machine.execHold src payload s
  | .release src payload => Sys2Proof.Machine.execRelease src payload s
  | .withdraw src payload => Sys2Proof.Machine.execWithdraw src payload s
  | .moveLot src payload => Sys2Proof.Machine.execMoveLot src payload s
  | .setReserve src payload => Sys2Proof.Machine.execSetReserve src payload s
  | .setFloor src payload => Sys2Proof.Machine.execSetFloor src payload s
  | .cancelRequest src payload => Sys2Proof.Machine.execCancelRequest src payload s
  | .poolAdjust src payload => Sys2Proof.Machine.execPoolAdjust src payload s
  | .stocktake src payload => Sys2Proof.Machine.execStocktake src payload s
  | .collect src payload => Sys2Proof.Machine.execCollect src payload s
  | .resumePoll src payload => Sys2Proof.Machine.execResumePoll src payload s
  | .clearCounters src payload => Sys2Proof.Machine.execClearCounters src payload s
  | .showLines src payload => Sys2Proof.Machine.execShowLines src payload s
  | .noticeRead src payload => Sys2Proof.Machine.execNoticeRead src payload s
  | .noticeClear src payload => Sys2Proof.Machine.execNoticeClear src payload s
  | .timeSet src payload => Sys2Proof.Machine.execTimeSet src payload s
  | .relay f => Sys2Proof.Machine.execRelay f s
  | .unknownRequest f => Sys2Proof.Machine.execUnknownRequest f s
  | .badDestination f => Sys2Proof.Machine.execBadDestination f s
  | .readBadTable src payload => Sys2Proof.Machine.execReadBadTable src payload s

end Sys2Proof.Machine
end

