-- ==== Sys2Proof/Safety.lean ====
section
/-! DEFINITION. What counts as a safe state of the part: the laws that the spec says it keeps at every event, and the
terms in which statements speak of office requests and their responses. -/

namespace Sys2Proof.Machine

/-! ## Money (R1, R6) -/

/-- The sum of the balances of all accounts. -/
def State.balances (s : State) : Int := (s.bank.accounts.map (fun x => x.2.balance)).sum

/-- R6: the balances of all accounts plus the saturation residue are zero. The account slots are in canonical form, and
slot 0 holds the hall account as R2 keeps it. -/
structure MoneyLaw (s : State) : Prop where
  slots : Table.Sorted s.bank.accounts
  hall : ∃ a, s.bank.accounts.find 0 = some a ∧ a.number = 0 ∧ a.kind = .hall ∧ a.state = .opened ∧ a.cause = .none
    ∧ a.limit = none
  zero : s.balances + s.bank.residue = 0

/-- A figure within the bounds of a balance, so that no side of a posting saturates at it (Table 1-1, R6). -/
def inBounds (x : Int) : Prop := -balanceBound ≤ x ∧ x ≤ balanceBound

/-! ## Holds (R1, R10, R102) -/

/-- The sum of the amounts of the holds naming an account. -/
def heldOn (hs : List Hold) (n : Nat) : Nat := (hs.map (fun h => if h.account = n then h.amount else 0)).sum

/-- R10 and the second half of R102: account numbers stand once; the hold list has at most 16 holds with ids of their
own; each account's held amount is the sum of its holds; a hold names an account of the table; an office hold is of at
least one cent; the chute holds and the dispenses in flight belong to each other one by one. -/
structure HoldLaw (s : State) : Prop where
  slots : Table.Sorted s.bank.accounts
  addresses : Table.Sorted s.stations
  numbers : (s.bank.accounts.map (fun x => x.2.number)).Nodup
  room : s.bank.holds.length ≤ 16
  nextId : 1 ≤ s.bank.nextHold ∧ s.bank.nextHold ≤ 255
  ids : (s.bank.holds.map (fun h => h.id)).Nodup
  idRange : ∀ h ∈ s.bank.holds, 1 ≤ h.id ∧ h.id ≤ 255
  held : ∀ x ∈ s.bank.accounts, x.2.held = heldOn s.bank.holds x.2.number
  named : ∀ h ∈ s.bank.holds, (s.account h.account).isSome
  office : ∀ h ∈ s.bank.holds, h.owner = .office → 1 ≤ h.amount
  chute : ∀ h ∈ s.bank.holds, ∀ a, h.owner = .chute a → ∃ d, s.jobAt a = some d ∧ d.hold = h.id ∧ d.account = h.account
  job : ∀ a d, s.jobAt a = some d → ∃ h ∈ s.bank.holds, h.id = d.hold ∧ h.owner = .chute a ∧ h.account = d.account

/-! ## Credit (R8) -/

/-- R8: every OPEN boat or buyer account has available credit of at least zero. Slots are in canonical form, numbers
stand once, balances lie within their bounds, and number 0 is the hall account's. -/
structure CreditLaw (s : State) : Prop where
  slots : Table.Sorted s.bank.accounts
  numbers : (s.bank.accounts.map (fun x => x.2.number)).Nodup
  bounds : ∀ x ∈ s.bank.accounts, -balanceBound ≤ x.2.balance ∧ x.2.balance ≤ balanceBound
  hall : ∀ x ∈ s.bank.accounts, x.2.number = 0 → x.2.kind = .hall
  opened : ∀ x ∈ s.bank.accounts, x.2.state = .opened → x.2.isClient = true → 0 ≤ x.2.available

/-! ## Record claims (R50, R143) -/

/-- The claims a station's owner holds: one for an open draft, a dispense in flight or an open session (Table 7-3). -/
def Device.claims : Device → Nat
  | .weigh _ ch => match ch.state with
    | .capture _ => 1
    | .idle => 0
    | .offline => 0
  | .chute _ c => if c.job.isSome then 1 else 0
  | .gate _ g => if g.session.isSome then 1 else 0
  | .icePlant => 0

/-- The claims held by open drafts, dispenses in flight, open gate sessions and rings (R143). -/
def State.claimsHeld (s : State) : Nat :=
  (s.stations.map (fun x => x.2.device.claims)).sum + (s.ring .r1).claims + (s.ring .r2).claims + (s.ring .r3).claims
    + (s.ring .r4).claims

/-- The claims that slot 1 of a resolution under way has written its record with: one where it bought crates. -/
def Ring.spent (x : Ring) : Nat := if x.offer.any (fun o => o.midway == some true) then 1 else 0

/-- What R50 says of a ring's state, offer and claims. A resolution that stands between its slots has spent the claim
of slot 1's sale, and stands there in RESOLVING alone (R61, R63). -/
structure Ring.Sound (x : Ring) : Prop where
  atMost : x.claims ≤ 2
  falling : x.state = .descending ∨ x.state = .resolving → x.claims + x.spent = 2
  midway : ∀ o, x.offer = some o → o.midway.isSome → x.state = .resolving
  offered : x.state = .leadIn ∨ x.state = .descending ∨ x.state = .resolving ∨ x.state = .afterSale → x.offer.isSome
  without : x.state = .idle ∨ x.state = .waiting → x.offer = none
  noClaims : x.offer = none ∨ x.state = .afterSale → x.claims = 0

/-- R143: occupied entries plus owed claims never exceed 128, and the owed claims are those that are held. -/
structure ClaimLaw (s : State) : Prop where
  rings : ∀ r, (s.ring r).Sound
  owed : s.queue.owed = s.claimsHeld
  room : s.occupied + s.queue.owed ≤ 128

/-! ## Lots (R37, R47, R48, R88, R89) -/

/-- R88 and R89 for one lot: landed figures split into sold and remaining, and no crate without a wu of net. -/
structure Lot.Sound (l : Lot) : Prop where
  net : l.net = l.soldNet + l.netRemaining
  crates : l.crates = l.soldCrates + l.remaining
  some_ : 1 ≤ l.remaining
  enough : l.remaining ≤ l.netRemaining

/-- The crates of an open draft number at least one (Table 2-4). -/
def Device.draftsCrates : Device → Prop
  | .weigh _ ch => match ch.state with
    | .capture d => 1 ≤ d.count
    | .idle => True
    | .offline => True
  | .chute _ _ => True
  | .gate _ _ => True
  | .icePlant => True

/-- R88 and R89 for every lot in the Lot Table. -/
structure LotFigures (s : State) : Prop where
  lots : ∀ x ∈ s.lotStore.lots, x.2.Sound
  drafts : ∀ x ∈ s.stations, x.2.device.draftsCrates

/-- The open drafts. -/
def Device.drafts : Device → Nat
  | .weigh _ ch => match ch.state with
    | .capture _ => 1
    | .idle => 0
    | .offline => 0
  | .chute _ _ => 0
  | .gate _ _ => 0
  | .icePlant => 0

/-- R47 and R48: lots and reservations number at most 256; every lot stands once in the queue of its ring, or is the
lot of its ring's offer, and never both. With a re-offer limit of at most 3 a lot has made at most 3 offers in the
queue and 4 on the clock (R57, R58, Table 10-4). -/
structure LotStoreLaw (s : State) : Prop where
  table : Table.Sorted s.lotStore.lots
  reserved : s.lotStore.reserved = (s.stations.map (fun x => x.2.device.drafts)).sum
  room : s.lotStore.lots.length + s.lotStore.reserved ≤ 256
  next : 1 ≤ s.lotStore.next ∧ s.lotStore.next ≤ 65535
  without : ∀ r, (s.ring r).state = .idle ∨ (s.ring r).state = .waiting → (s.ring r).offer = none
  once : ∀ r, (s.ring r).queue.Nodup
  queue : ∀ r, ∀ n ∈ (s.ring r).queue, ∃ l, s.lot n = some l ∧ l.ring = r ∧ l.state = .queued
  queued : ∀ x ∈ s.lotStore.lots, x.2.state = .queued → x.1 ∈ (s.ring x.2.ring).queue
  reoffers : s.par.reofferLimit ≤ 3
  offers : ∀ x ∈ s.lotStore.lots, x.2.offers ≤ (if x.2.state = .queued then 3 else 4)
  clock : ∀ x ∈ s.lotStore.lots, x.2.state = .onClock →
    (s.ring x.2.ring).state ≠ .afterSale ∧ ∃ o, (s.ring x.2.ring).offer = some o ∧ o.lot = x.1
  offer : ∀ r o, (s.ring r).offer = some o → (s.ring r).state ≠ .afterSale →
    ∃ l, s.lot o.lot = some l ∧ l.ring = r ∧ l.state = .onClock

/-! ## Prices (R54, R56) -/

/-- R56: while a ring has an offer, its price lies between the effective floor and the offer start price; no profile's
floor price lies above its start price (R185). -/
structure PriceLaw (s : State) : Prop where
  profiles : ∀ x ∈ s.profiles, x.2.floor ≤ x.2.start
  price : ∀ r o, (s.ring r).offer = some o → o.effFloor ≤ o.price ∧ o.price ≤ o.startPrice

/-! ## Crates (R119, R120) -/

/-- The account an open draft or session names, with the crate type. -/
def Device.names : Device → Option (Nat × Nat)
  | .weigh _ ch => match ch.state with
    | .capture d => some (d.boat, d.ctype)
    | .idle => none
    | .offline => none
  | .chute _ _ => none
  | .gate _ g => g.session.map (fun x => (x.account, x.ctype))
  | .icePlant => none

/-- An account number and a crate type that both stand in their tables. -/
def State.known (s : State) (n t : Nat) : Prop := (s.account n).isSome ∧ (s.crateTypes.find t).isSome

/-- R120: for each crate type, store plus holdings less shortfall plus crate residue is the pool size. The tables are
in canonical form, a type without an entry has no holdings (R119), and what lots, drafts and sessions name stands in
its table (R21, R123). -/
structure CrateLaw (s : State) : Prop where
  types : Table.Sorted s.crateTypes
  slots : Table.Sorted s.bank.accounts
  addresses : Table.Sorted s.stations
  lotNumbers : Table.Sorted s.lotStore.lots
  numbers : (s.bank.accounts.map (fun x => x.2.number)).Nodup
  balances : ∀ x ∈ s.bank.accounts, Table.Sorted x.2.crates
  lots : ∀ x ∈ s.lotStore.lots, s.known x.2.boat x.2.ctype
  work : ∀ x ∈ s.stations, ∀ n t, x.2.device.names = some (n, t) → s.known n t
  reserved : s.lotStore.reserved = (s.stations.map (fun x => x.2.device.drafts)).sum
  room : s.lotStore.lots.length + s.lotStore.reserved ≤ 256
  next : 1 ≤ s.lotStore.next ∧ s.lotStore.next ≤ 65535
  absent : ∀ x ∈ s.bank.accounts, ∀ t, s.crateTypes.find t = none → x.2.crateBalance t = 0
  law : ∀ t c, s.crateTypes.find t = some c → (c.store : Int) + s.holdings t - c.shortfall + c.residue = c.pool

/-! ## The screw (R101, R102) -/

/-- R101 and the first half of R102: the latch list holds the chutes in REQUESTED and SUSPENDED, each once, and the
screw serves at most one chute. -/
structure ScrewLaw (s : State) : Prop where
  addresses : Table.Sorted s.stations
  once : s.ice.latch.Nodup
  latched : ∀ a, a ∈ s.ice.latch ↔ ∃ d, s.jobAt a = some d ∧ (d.state = .requested ∨ d.state = .suspended)
  running : ∀ a d, s.jobAt a = some d → d.state = .running → s.ice.screw = .running a
  ending : ∀ a d, s.jobAt a = some d → d.state = .ending →
    s.ice.screw = .running a ∨ s.ice.screw = .switching a ∨ s.ice.screw = .dry
  single : ∀ a b d e, s.jobAt a = some d → s.jobAt b = some e → d.state = .ending → e.state = .ending → a = b
  served : ∀ a, s.ice.screw.served = some a → ∃ d, s.jobAt a = some d ∧ (d.state = .running ∨ d.state = .ending)

/-! ## Operating state and the office stages (R77, R166, R179, R181) -/

/-- In LOAD the poller is OFF and every ring is IDLE; in RUN the poller is not OFF and HALL is present. In either state
a frame waits in the office receive stage only behind a response that waits in the transmit stage (R179). -/
structure OperatingLaw (s : State) : Prop where
  loadPoller : s.op = .load → s.poller.state = .off
  loadRings : s.op = .load → ∀ r, (s.ring r).state = .idle
  runPoller : s.op = .run → s.poller.state ≠ .off
  runHall : s.op = .run → s.hall.isSome
  officeTaken : s.office.stage = none → s.office.rx = []

/-! ## Tables and ranges -/

/-- Every table is in canonical form: indices strictly rising. -/
structure TablesLaw (s : State) : Prop where
  accounts : Table.Sorted s.bank.accounts
  lots : Table.Sorted s.lotStore.lots
  latches : Table.Sorted s.latches
  species : Table.Sorted s.species
  profiles : Table.Sorted s.profiles
  crateTypes : Table.Sorted s.crateTypes
  keypads : Table.Sorted s.keypads
  stations : Table.Sorted s.stations
  text : Table.Sorted s.boards.text

/-- The indices of the tables lie in their numberings (Table 10-3). -/
structure IndexLaw (s : State) : Prop where
  accounts : ∀ x ∈ s.bank.accounts, x.1 ≤ 511
  lots : ∀ x ∈ s.lotStore.lots, 1 ≤ x.1 ∧ x.1 ≤ 65535
  next : 1 ≤ s.lotStore.next ∧ s.lotStore.next ≤ 65535
  latches : ∀ x ∈ s.latches, 1 ≤ x.1 ∧ x.1 ≤ 16
  species : ∀ x ∈ s.species, 1 ≤ x.1 ∧ x.1 ≤ 64
  profiles : ∀ x ∈ s.profiles, 1 ≤ x.1 ∧ x.1 ≤ 16
  crateTypes : ∀ x ∈ s.crateTypes, 1 ≤ x.1 ∧ x.1 ≤ 8
  keypads : ∀ x ∈ s.keypads, 1 ≤ x.1 ∧ x.1 ≤ 64
  stations : ∀ x ∈ s.stations, 1 ≤ x.1 ∧ x.1 ≤ 30
  text : ∀ x ∈ s.boards.text, 1 ≤ x.1 ∧ x.1 ≤ 8

/-- The counters of a port lie within 0 to 65,535, and its receive stage holds at most two frames (R149, R150,
R152). -/
structure Port.Sound (p : Port) : Prop where
  f : p.cntF ≤ 65535
  c : p.cntC ≤ 65535
  l : p.cntL ≤ 65535
  o : p.cntO ≤ 65535
  b : p.cntB ≤ 65535
  stage : p.rx.length ≤ 2

/-- The day totals lie within their range (Table 1-1, R9). -/
structure DayTotals.Sound (t : DayTotals) : Prop where
  landed : t.landed ≤ 4000000000
  sold : t.sold ≤ 4000000000
  bought : t.bought ≤ 4000000000
  ice : t.ice ≤ 4000000000
  levies : t.levies ≤ 4000000000

/-- The fields of an account lie within the ranges of Table 1-1; the held amount is a sum of holds (HoldLaw). -/
structure Account.Sound (a : Account) : Prop where
  number : a.number ≤ 9999
  balance : inBounds a.balance
  limit : ∀ x, a.limit = some x → x ≤ 100000000
  crates : ∀ x ∈ a.crates, inBounds x.2
  overdraft : ∀ x, a.overdraft = some x → x ≤ 500
  totals : a.totals.Sound

/-- The fields of a crate type lie within the ranges of Table 6-1. -/
structure CrateType.Sound (c : CrateType) : Prop where
  tare : c.tare ≤ 1000
  deposit : c.deposit ≤ 5000
  pool : c.pool ≤ 1000000
  store : c.store ≤ storeBound
  shortfall : c.shortfall ≤ storeBound

/-- The accounts, the holds' amounts, the HALL parameters, the crate types, the ports, the command lists, the miss
counts, the answer queue, the latches, the office floor level, the notice level and the hall time lie within their
ranges (Tables 1-1, 6-1, 10-4; R10, R149 to R152, R158, R159, R169, R192, R194, R197). -/
structure RangeLaw (s : State) : Prop where
  tod : s.clock.tod ≤ 86399999
  day : s.clock.day ≤ 65535
  accounts : ∀ x ∈ s.bank.accounts, x.2.Sound
  holds : ∀ h ∈ s.bank.holds, h.amount ≤ 1000000000
  hall : ∀ h, s.hall = some h → h.inRange = true
  types : ∀ x ∈ s.crateTypes, x.2.Sound
  quay : s.quay.Sound
  floor : s.floor.Sound
  office : s.office.Sound
  lists : ∀ x ∈ s.stations, x.2.commands.length ≤ 2
  misses : ∀ x ∈ s.stations, x.2.misses ≤ 15
  answers : s.boards.answers.length ≤ 16
  latches : ∀ x ∈ s.latches, x.2.count ≤ 255
  level : s.ice.officeFloor ≤ 7
  notice : s.noticeLevel ≤ 7

/-! ## Office requests and their responses (R179, R180) -/

/-- The management unit can take a frame now: no response waits, and the frame arrives with the office receive stage
empty, or is its front one (R179, log 3). -/
def State.takes (s : State) (f : Frame) : Prop :=
  s.office.stage = none ∧ (s.office.rx = [] ∨ s.office.rx.head? = some f)

/-- A frame is answered with a status and result fields: it has left the receive stage, and the response of R180,
built from the state as the request left it, goes on the idle line or waits in the transmit stage (R151). -/
def State.answered (s t : State) (f : Frame) (st : Status) (result : List Byte) : Prop :=
  t.office = { s.office with rx := s.office.rx.drop 1 }.place (t.responseFrame f.src f.kind st result)

/-- The office frame that a command of the table carries, if it is one: a request or another office frame. -/
def officeFrame : Instr → Option Frame
  | .run src p => some (requestFrame src 0x20 p)
  | .restart src p => some (requestFrame src 0x21 p)
  | .loadHall src b => some (loadFrame src 1 b)
  | .loadStations src b => some (loadFrame src 2 b)
  | .loadSpecies src b => some (loadFrame src 3 b)
  | .loadProfiles src b => some (loadFrame src 4 b)
  | .loadCrates src b => some (loadFrame src 5 b)
  | .loadKeypads src b => some (loadFrame src 6 b)
  | .loadAccounts src b => some (loadFrame src 7 b)
  | .loadBoardText src b => some (loadFrame src 8 b)
  | .loadNotLoadable src p => some (requestFrame src 0x22 p)
  | .readHall src b => some (readFrame src 1 b)
  | .readStations src b => some (readFrame src 2 b)
  | .readSpecies src b => some (readFrame src 3 b)
  | .readProfiles src b => some (readFrame src 4 b)
  | .readCrates src b => some (readFrame src 5 b)
  | .readKeypads src b => some (readFrame src 6 b)
  | .readAccounts src b => some (readFrame src 7 b)
  | .readBoardText src b => some (readFrame src 8 b)
  | .readLots src b => some (readFrame src 9 b)
  | .readHolds src b => some (readFrame src 10 b)
  | .readBadTable src p => some (requestFrame src 0x23 p)
  | .stopAccount src p => some (requestFrame src 0x24 p)
  | .openAccount src p => some (requestFrame src 0x25 p)
  | .transfer src p => some (requestFrame src 0x26 p)
  | .settle src p => some (requestFrame src 0x27 p)
  | .placeHold src p => some (requestFrame src 0x28 p)
  | .releaseHold src p => some (requestFrame src 0x29 p)
  | .startRing src p => some (requestFrame src 0x2A p)
  | .stopRing src p => some (requestFrame src 0x2B p)
  | .hold src p => some (requestFrame src 0x2C p)
  | .release src p => some (requestFrame src 0x2D p)
  | .withdraw src p => some (requestFrame src 0x2E p)
  | .moveLot src p => some (requestFrame src 0x2F p)
  | .setReserve src p => some (requestFrame src 0x30 p)
  | .setFloor src p => some (requestFrame src 0x31 p)
  | .cancelRequest src p => some (requestFrame src 0x32 p)
  | .poolAdjust src p => some (requestFrame src 0x33 p)
  | .stocktake src p => some (requestFrame src 0x34 p)
  | .collect src p => some (requestFrame src 0x35 p)
  | .resumePoll src p => some (requestFrame src 0x36 p)
  | .clearCounters src p => some (requestFrame src 0x37 p)
  | .showLines src p => some (requestFrame src 0x38 p)
  | .noticeRead src p => some (requestFrame src 0x39 p)
  | .noticeClear src p => some (requestFrame src 0x3A p)
  | .timeSet src p => some (requestFrame src 0x3B p)
  | .relay f => some f
  | .unknownRequest f => some f
  | .badDestination f => some f
  | .powerOn | .hallTick | .frameEnd _ _ _ | .lineBreak _ _ _ | .breakEnd _ | .frameSent _ | .floorSilence
  | .cycleTimerWrap | .replyTimeout | .quayReply _ | .foreignPoll _ | .heardReply _ | .hearingExpiry _
  | .breakTimerExpiry | .captureTimeout _ | .floorStop _ | .offerStart _ | .claimTopUp _ | .pauseExpiry _
  | .stepWrap _ | .resolveExpiry _ | .afterSaleExpiry _ | .screwGrant | .iceWaitTimeout _ | .gateIdleTimeout _
  | .paceExpiry _ => none

/-- The payload's length does not fit its row of Table 12-6 (R202). -/
def misfit : Instr → Prop
  | .run _ p => p.length ≠ 0
  | .restart _ p => p.length ≠ 0
  | .loadHall _ b => b.length < 2 + 31 ∨ (b.length - 2) % 31 ≠ 0
  | .loadStations _ b => b.length < 2 + 12 ∨ (b.length - 2) % 12 ≠ 0
  | .loadSpecies _ b => b.length < 2 + 8 ∨ (b.length - 2) % 8 ≠ 0
  | .loadProfiles _ b => b.length < 2 + 18 ∨ (b.length - 2) % 18 ≠ 0
  | .loadCrates _ b => b.length < 2 + 7 ∨ (b.length - 2) % 7 ≠ 0
  | .loadKeypads _ b => b.length < 2 + 5 ∨ (b.length - 2) % 5 ≠ 0
  | .loadAccounts _ b => b.length < 2 + 14 ∨ (b.length - 2) % 14 ≠ 0
  | .loadBoardText _ b => readLoadText b = none
  | .loadNotLoadable _ p => p.length < 3 ∧ p.head?.any loadableCode = false
  | .readHall _ b | .readStations _ b | .readSpecies _ b | .readProfiles _ b | .readCrates _ b | .readKeypads _ b
  | .readAccounts _ b | .readBoardText _ b | .readLots _ b | .readHolds _ b => b.length ≠ 3
  | .readBadTable _ p => p.length ≠ 4 ∧ p.head?.any readableCode = false
  | .stopAccount _ p | .openAccount _ p | .settle _ p | .withdraw _ p | .moveLot _ p | .noticeClear _ p => p.length ≠ 2
  | .transfer _ p => p.length ≠ 8
  | .placeHold _ p | .timeSet _ p => p.length ≠ 6
  | .releaseHold _ p | .startRing _ p | .stopRing _ p | .hold _ p | .release _ p | .setFloor _ p | .cancelRequest _ p
  | .collect _ p | .clearCounters _ p | .showLines _ p => p.length ≠ 1
  | .setReserve _ p | .poolAdjust _ p | .stocktake _ p => p.length ≠ 5
  | .resumePoll _ p => p.length ≠ 0
  | .noticeRead _ p => p.length ≠ 2
  | .relay _ | .unknownRequest _ | .badDestination _ | .powerOn | .hallTick | .frameEnd _ _ _ | .lineBreak _ _ _
  | .breakEnd _ | .frameSent _ | .floorSilence | .cycleTimerWrap | .replyTimeout | .quayReply _ | .foreignPoll _
  | .heardReply _ | .hearingExpiry _ | .breakTimerExpiry | .captureTimeout _ | .floorStop _ | .offerStart _
  | .claimTopUp _ | .pauseExpiry _ | .stepWrap _ | .resolveExpiry _ | .afterSaleExpiry _ | .screwGrant
  | .iceWaitTimeout _ | .gateIdleTimeout _ | .paceExpiry _ => False

/-- The READ rows whose table goes by index: first and last index, the entry of an index, the body (Table 10-3). -/
def readRow : Instr → Option (Nat × Nat × (State → Nat → Option (List Byte)) × List Byte)
  | .readHall _ b => some (1, 1, hallEntry, b)
  | .readStations _ b => some (1, 30, stationEntry, b)
  | .readSpecies _ b => some (1, 64, speciesEntry, b)
  | .readProfiles _ b => some (1, 16, profileEntry, b)
  | .readCrates _ b => some (1, 8, crateEntry, b)
  | .readKeypads _ b => some (1, 64, keypadEntry, b)
  | .readAccounts _ b => some (0, 511, accountEntry, b)
  | .readBoardText _ b => some (1, 8, textEntry, b)
  | .readHolds _ b => some (1, 16, holdEntry, b)
  | .readLots _ _ | .powerOn | .hallTick | .frameEnd _ _ _ | .lineBreak _ _ _ | .breakEnd _ | .frameSent _
  | .floorSilence | .cycleTimerWrap | .replyTimeout | .quayReply _ | .foreignPoll _ | .heardReply _ | .hearingExpiry _
  | .breakTimerExpiry | .captureTimeout _ | .floorStop _ | .offerStart _ | .claimTopUp _ | .pauseExpiry _
  | .stepWrap _ | .resolveExpiry _ | .afterSaleExpiry _ | .screwGrant | .iceWaitTimeout _ | .gateIdleTimeout _
  | .paceExpiry _ | .run _ _ | .restart _ _ | .loadHall _ _ | .loadStations _ _ | .loadSpecies _ _
  | .loadProfiles _ _ | .loadCrates _ _ | .loadKeypads _ _ | .loadAccounts _ _ | .loadBoardText _ _
  | .loadNotLoadable _ _ | .stopAccount _ _ | .openAccount _ _ | .transfer _ _ | .settle _ _ | .placeHold _ _
  | .releaseHold _ _ | .startRing _ _ | .stopRing _ _ | .hold _ _ | .release _ _ | .withdraw _ _ | .moveLot _ _
  | .setReserve _ _ | .setFloor _ _ | .cancelRequest _ _ | .poolAdjust _ _ | .stocktake _ _ | .collect _ _
  | .resumePoll _ _ | .clearCounters _ _ | .showLines _ _ | .noticeRead _ _ | .noticeClear _ _ | .timeSet _ _
  | .relay _ | .unknownRequest _ | .badDestination _ | .readBadTable _ _ => none

/-! ## How two states compare -/

/-- A command waiting at the end of a station's list after it was placed there with room (R159). -/
def State.joined (s t : State) (a : Nat) (c : QuayCommand) : Prop :=
  ∀ st, s.station a = some st → st.enabled = true → st.commands.length < 2 →
    ∃ st', t.station a = some st' ∧ st'.commands = st.commands ++ [c]

/-- A record written behind the others, with the next number and the hall time (R140, R144). -/
def State.wrote (s t : State) (body : RecordBody) : Prop :=
  t.queue.records = s.queue.records ++ [{ number := s.queue.next, body := body, at_ := s.clock }]
    ∧ t.queue.next = nextNumber s.queue.next

/-- A ring is as it was, but for its hold marks, which the placing of its board frame clears (R174). -/
def Ring.sameButMarks (x y : Ring) : Prop := { y with setSeen := x.setSeen, clearSeen := x.clearSeen } = x

/-- A ring is as it was, but that it may have been told to ask again (R145). -/
def Ring.sameButTold (x y : Ring) : Prop := { y with told := x.told } = x

/-- A ring is as it was, but for its hold marks and that it may have been told to ask again. -/
def Ring.sameButBoth (x y : Ring) : Prop :=
  { y with setSeen := x.setSeen, clearSeen := x.clearSeen, told := x.told } = x

/-- An account is as it was, but for its held amount. -/
def Account.sameButHeld (a b : Account) : Prop := { b with held := a.held } = a

/-! ## What a step leaves: terms shared by several statements -/

/-- How many STOP frames of another length than 3 stand among the frames at the front of the floor receive stage that
the routing discards (R168, R201). -/
def misfitStops (fs : List Frame) : Nat :=
  ((fs.takeWhile (fun g => decide (¬ (g.kind = 0x11 ∧ g.dst = 0)))).filter
    (fun g => decide (g.kind = 0x11 ∧ g.payload.length ≠ 3))).length

/-- A latch after a number of further occurrences of FLOOR_ERRORS, each with no subject (R168, R192, R201). -/
def Latch.floorErrors (l : Latch) (now : Stamp) : Nat → Latch
  | 0 => l
  | n + 1 => (l.occur now .none (some .floorErrors)).floorErrors now n

/-- The rings and the board slots after a floor recovery (R69, R66, R55, R177). -/
def State.recovered (s t : State) : Prop :=
  (∀ r, (s.ring r).state = .held → (t.ring r).heldFloor = false
      ∧ ((s.ring r).heldOffice = true → (t.ring r).state = .held ∧ (t.ring r).heldOffice = true)
      ∧ ((s.ring r).heldOffice = false → (s.ring r).heldFloor = true → (s.ring r).offer = none →
          (t.ring r).state = .waiting)
      ∧ (∀ o, (s.ring r).offer = some o → (s.ring r).heldOffice = false → (s.ring r).heldFloor = true →
          (t.ring r).offer = some o
          ∧ (0 < o.profile.resumePause → (t.ring r).state = .leadIn
              ∧ (t.ring r).timer = some { elapsed := 0, limit := o.profile.resumePause })
          ∧ (o.profile.resumePause = 0 → (t.ring r).claims = 2 → (t.ring r).state = .descending
              ∧ (t.ring r).timer = some { elapsed := 0, limit := o.profile.interval })
          ∧ (o.profile.resumePause = 0 → (t.ring r).claims ≠ 2 → (t.ring r).state = .leadIn
              ∧ (t.ring r).stall = .claims)))
    ∧ (∀ r, (s.ring r).state ≠ .held → (s.ring r).sameButMarks (t.ring r))
    ∧ (s.floor.stage ≠ none → ∀ r, (s.slot r).content.isSome = true → (t.slot r).readiness = .ready)
    ∧ { t with floor := s.floor, floorLine := s.floorLine, rings := s.rings, boards := s.boards, queue := s.queue,
               latches := s.latches, choices := s.choices } = s

/-- The claims of a ring that enters LEAD_IN: those missing to 2 are asked for together, and taken whole where the
queue has room for them or not at all (R55, R141). -/
def State.toppedUp (s t : State) (r : RingNo) : Prop :=
  ((s.ring r).claims < 2 → s.queue.records.length + s.queue.owed + (2 - (s.ring r).claims) ≤ 128 →
      (t.ring r).claims = 2 ∧ t.queue = { s.queue with owed := s.queue.owed + (2 - (s.ring r).claims) })
    ∧ (2 ≤ (s.ring r).claims ∨ 128 < s.queue.records.length + s.queue.owed + (2 - (s.ring r).claims) →
        (t.ring r).claims = (s.ring r).claims ∧ t.queue = s.queue)

/-- The poller's record of an enabled station after a miss (R157, R158). -/
def State.missed (s t : State) (a : Nat) (st : Station) : Prop :=
  ∃ u, t.station a = some u ∧ u.misses = min 15 (st.misses + 1)
    ∧ (st.live = .online → s.par.missLimit ≤ min 15 (st.misses + 1) →
        u.live = .offline ∧ t.latchAt 6 = (s.latchAt 6).occur s.clock (.station a) none)
    ∧ (st.live = .offline ∨ min 15 (st.misses + 1) < s.par.missLimit → u.live = st.live ∧ u.commands = st.commands)

/-- The poll of a station stands on the idle line or in the free stage, with the oldest command of its list outside a
roll-call; while the stage is full it is due after the address polled last (R151, R156, R157, R160). -/
def State.pollPlaced (s t : State) (last a : Nat) (rollCall : Bool) : Prop :=
  (s.quay.stage ≠ none → t.poller.poll = some { station := last, phase := .due } ∧ t.quay.onLine = s.quay.onLine
      ∧ t.quay.stage = s.quay.stage)
    ∧ (s.quay.stage = none → s.quay.onLine = none → t.poller.poll = some { station := a, phase := .onLine }
        ∧ t.quay.onLine = some (pollFrame a (if rollCall = true then none
            else (t.station a).bind (fun st => st.commands.head?)))
        ∧ t.quay.stage = none)
    ∧ (s.quay.stage = none → s.quay.onLine ≠ none → t.poller.poll = some { station := a, phase := .staged }
        ∧ t.quay.onLine = s.quay.onLine
        ∧ t.quay.stage = some (pollFrame a (if rollCall = true then none
            else (t.station a).bind (fun st => st.commands.head?))))

/-- The poller has gone on after an address: the poll of the lowest enabled address above it, or the end of the cycle
and the start of one that is due (R156). -/
def State.polledOn (s t : State) (last : Nat) : Prop :=
  (∀ a, s.nextEnabled last = some a → t.poller = { s.poller with poll := t.poller.poll }
      ∧ s.pollPlaced t last a (s.poller.cycle == some true))
    ∧ (s.nextEnabled last = none → s.poller.startDue = false → t.poller = { s.poller with cycle := none, poll := none }
        ∧ t.quay.onLine = s.quay.onLine ∧ t.quay.stage = s.quay.stage)
    ∧ (s.nextEnabled last = none → s.poller.startDue = true → s.nextEnabled 0 = none →
        t.poller = { s.poller with cycle := none, poll := none, startDue := false })
    ∧ (∀ a, s.nextEnabled 0 = some a → s.nextEnabled last = none → s.poller.startDue = true →
        t.poller = { s.poller with cycle := some false, startDue := false, poll := t.poller.poll }
          ∧ s.pollPlaced t 0 a false)

/-- A station's record, and its channel, after a valid reply (R157, R158, R30). -/
def Station.replied (st : Station) (now : Stamp) : Station :=
  { st with
    misses := 0, live := .online, lastHeard := some now, age := 0, carried := false
    commands := if st.carried then st.commands.drop 1 else st.commands
    device := match st.live, st.device with
      | .offline, .weigh cfg ch => .weigh cfg { ch with state := match ch.state with
          | .offline => .idle
          | .idle => .idle
          | .capture d => .capture d }
      | _, d => d }

/-- A chute's place in the latch list: behind those whose dispenses do not stand behind its own in the order of the
request times, and before the first that does (R101, R199). -/
def State.latchedAt (s t : State) (a : Nat) (d : Dispense) : Prop :=
  a ∈ t.ice.latch ∧ t.ice.latch.erase a = s.ice.latch
    ∧ (∀ b ∈ t.ice.latch.takeWhile (fun b => b != a), ∀ e, s.jobAt b = some e → d.ahead e = false)
    ∧ (∀ b, ((t.ice.latch.dropWhile (fun b => b != a)).drop 1).head? = some b → ∀ e, s.jobAt b = some e →
        d.ahead e = true)

/-- What the end of a dispense leaves: chute IDLE, latch list, screw, hold, the charge of one that has started, the ICE
record with its claim; nothing beside them but the station's answer and a stop of another chute's run (R110, R12). -/
def State.dispenseEnded (s t : State) (a : Nat) (d : Dispense) (kg : Nat) (cause : IceCause) : Prop :=
  t.jobAt a = none
    ∧ t.ice.latch = s.ice.latch.erase a
    ∧ (s.ice.screw.served = some a → t.ice.screw = .idle)
    ∧ (s.ice.screw.served = none → t.ice.screw = s.ice.screw)
    ∧ (s.ice.screw.served = none ∨ s.ice.screw.served = some a → ∀ b, b ≠ a → t.station b = s.station b)
    ∧ t.bank.holds = s.bank.holds.eraseP (fun h => h.id == d.hold)
    ∧ t.queue.owed = s.queue.owed - 1
    ∧ { t with stations := s.stations, bank := s.bank, queue := s.queue, ice := s.ice, latches := s.latches,
               choices := s.choices } = s
    ∧ (d.started = false → t.bank.residue = s.bank.residue
        ∧ (∀ n x, s.account n = some x → ∃ y, t.account n = some y ∧ x.sameButHeld y)
        ∧ s.wrote t (.ice (s.chuteNo a) d.account d.ordered d.granted kg 0 cause (s.flagsOf d.account)))
    ∧ (∀ acct, s.account d.account = some acct → ∀ hall, s.account 0 = some hall → ∀ h, s.holdOf d.hold = some h →
        d.started = true → h.account = d.account → d.account ≠ 0 →
        inBounds (acct.balance - (kg * d.price : Nat)) → inBounds (hall.balance + (kg * d.price : Nat)) →
          (∃ x, t.account d.account = some x
            ∧ x.balance = acct.balance - (kg * d.price : Nat)
            ∧ x.held = acct.held - h.amount
            ∧ x.totals = { acct.totals with ice := min 4000000000 (acct.totals.ice + kg) }
            ∧ x.state = (if acct.state = .opened ∧ acct.isClient = true ∧ x.available < 0 then .stopped
                else acct.state)
            ∧ s.wrote t (.ice (s.chuteNo a) d.account d.ordered d.granted kg (kg * d.price) cause x.flags))
          ∧ (∃ x, t.account 0 = some x ∧ x.balance = hall.balance + (kg * d.price : Nat))
          ∧ t.bank.residue = s.bank.residue)

/-- What the end of a run leaves of a dispense that is suspended: `k` kilograms delivered, the cause set, the chute back
in the latch list at its dispense's place and the screw freed (R108, Table 5-5). -/
def State.runSuspended (s t : State) (a : Nat) (cfg : ChuteCfg) (c : Chute) (d : Dispense) (k : Nat)
    (cause : SuspendCause) : Prop :=
  (∀ e, e = { d with state := .suspended, suspendCause := some cause, pendingOutcome := none, delivered := k
                     current := 0 } →
      t.chuteAt a = some (cfg, { c with job := some e }) ∧ s.latchedAt t a e)
    ∧ (s.ice.screw.served = some a → t.ice.screw = .idle)
    ∧ (s.ice.screw.served = none → t.ice.screw = s.ice.screw)
    ∧ (s.ice.screw.served = some a ∨ s.ice.screw.served = none → ∀ b, b ≠ a → t.station b = s.station b)
    ∧ { t with stations := s.stations, ice := s.ice, latches := s.latches } = s

/-- What the close of a gate session leaves: gate IDLE, the crates, store, shortfall and deposit posted by its
direction, the CRATE record with its claim; nothing beside them but the station's command (R133, Table 6-6). -/
def State.sessionClosed (s t : State) (a : Nat) (dir : GateDirection) (g : Gate) (x : Session) (cause : CrateCause) :
    Prop :=
  t.gateAt a = some (dir, { g with session := none, lastClose := some { count := x.count, cause := cause } })
    ∧ (∀ b, b ≠ a → t.station b = s.station b)
    ∧ s.wrote t (.crate (s.gateNo a) x.account x.ctype x.dir x.count (x.count * s.depositOf x.ctype) cause)
    ∧ t.queue.owed = s.queue.owed - 1
    ∧ { t with stations := s.stations, bank := s.bank, queue := s.queue, latches := s.latches,
               crateTypes := s.crateTypes, choices := s.choices } = s
    ∧ (∀ acct, s.account x.account = some acct → ∀ c, s.crateTypes.find x.ctype = some c →
        (x.dir = .into → c.store + x.count ≤ storeBound →
          t.crateTypes.find x.ctype = some { c with
            store := c.store + x.count
            residue := c.residue + unapplied (acct.crateBalance x.ctype) (-(x.count : Int)) })
        ∧ (x.dir = .out → x.count ≤ c.store →
          t.crateTypes.find x.ctype = some { c with
            store := c.store - x.count
            residue := c.residue + unapplied (acct.crateBalance x.ctype) (x.count : Int) })
        ∧ (x.dir = .out → c.store < x.count → c.shortfall + (x.count - c.store) ≤ storeBound →
          t.crateTypes.find x.ctype = some { c with
            store := 0
            shortfall := c.shortfall + (x.count - c.store)
            residue := c.residue + unapplied (acct.crateBalance x.ctype) (x.count : Int) }
          ∧ t.latchAt 12 = (s.latchAt 12).occur s.clock (.type x.ctype) none))
    ∧ (∀ acct, s.account x.account = some acct → ∀ hall, s.account 0 = some hall → x.account ≠ 0 →
        Table.Sorted acct.crates →
        inBounds (acct.balance - (x.count * s.depositOf x.ctype : Nat)) →
        inBounds (acct.balance + (x.count * s.depositOf x.ctype : Nat)) →
        ∃ y, t.account x.account = some y
          ∧ y.balance = (if x.dir = .out then acct.balance - (x.count * s.depositOf x.ctype : Nat)
              else acct.balance + (x.count * s.depositOf x.ctype : Nat))
          ∧ y.crateBalance x.ctype = clampBalance (acct.crateBalance x.ctype
              + (if x.dir = .out then (x.count : Int) else -(x.count : Int)))
          ∧ y.held = acct.held ∧ y.totals = acct.totals)

/-- What the loss of an ONLINE station leaves (R158): OFFLINE with its miss count standing, STATION_LOST, its list
cleared and then holding what its owner sends. A WEIGH channel's tracker is reset and its draft ends LOST without a lot
(R41); a chute's dispense ends LOST, charged for what it last reported (R115); a gate's session closes LOST (R132); the
bin of a lost ICEPLANT is unknown and so empty, a running chute stopped with SUSPEND DRY (R114). -/
def State.lostAt (s t : State) (a : Nat) : Prop :=
  ∀ st, s.station a = some st →
    (∃ u, t.station a = some u ∧ u.live = .offline ∧ u.misses = st.misses ∧ u.enabled = st.enabled
        ∧ u.lastHeard = st.lastHeard)
      ∧ t.latchAt 6 = (s.latchAt 6).occur s.clock (.station a) none ∧ t.poller = s.poller
      ∧ (∀ cfg ch, s.weighAt a = some (cfg, ch) →
          t.weighAt a = some (cfg, { tracker := { state := .moving, counter := 0, previous := none, held := none }
                                     state := .offline })
          ∧ (∀ b, b ≠ a → t.station b = s.station b)
          ∧ ((∀ d, ch.state ≠ .capture d) → (t.station a).map (fun x => x.commands) = some []
              ∧ { t with stations := s.stations, latches := s.latches } = s)
          ∧ (∀ d, ch.state = .capture d →
              t.lotStore = { s.lotStore with reserved := s.lotStore.reserved - 1 }
              ∧ t.queue = { s.queue with owed := s.queue.owed - 1 }
              ∧ (∀ r, (s.ring r).sameButTold (t.ring r))
              ∧ (t.station a).map (fun x => x.commands) = some (if st.enabled = true then [.result .lost] else [])
              ∧ { t with stations := s.stations, lotStore := s.lotStore, queue := s.queue, rings := s.rings,
                         latches := s.latches } = s))
      ∧ (∀ cfg c, s.chuteAt a = some (cfg, c) →
          (c.job = none → (t.station a).map (fun x => x.commands) = some [] ∧ (∀ b, b ≠ a → t.station b = s.station b)
            ∧ t.chuteAt a = some (cfg, c) ∧ { t with stations := s.stations, latches := s.latches } = s)
          ∧ (∀ d, c.job = some d → s.dispenseEnded t a d (d.delivered + d.current) .lost
              ∧ (t.station a).map (fun x => x.commands)
                  = some (if st.enabled = true then [.answerEnded .lost (d.delivered + d.current)] else [])))
      ∧ (∀ dir g, s.gateAt a = some (dir, g) →
          (g.session = none → (t.station a).map (fun x => x.commands) = some []
            ∧ (∀ b, b ≠ a → t.station b = s.station b) ∧ t.gateAt a = some (dir, g)
            ∧ { t with stations := s.stations, latches := s.latches } = s)
          ∧ (∀ x, g.session = some x → s.sessionClosed t a dir g x .lost
              ∧ (t.station a).map (fun y => y.commands)
                  = some (if st.enabled = true then [.closed g.tag x.count .lost] else [])))
      ∧ (st.device = .icePlant → t.ice.level = none ∧ t.ice.emptyFlag = none ∧ t.ice.screw = .dry
          ∧ (t.station a).map (fun x => x.commands) = some []
          ∧ (s.ice.screw ≠ .dry → t.latchAt 7 = (s.latchAt 7).occur s.clock (.station a) none)
          ∧ (∀ b, b ≠ a → s.jobAt b = none ∨ s.ice.screw ≠ .running b → t.station b = s.station b)
          ∧ (∀ b cfg c, s.chuteAt b = some (cfg, c) → ∀ d, c.job = some d → s.ice.screw = .running b →
              d.state = .running →
              t.jobAt b = some { d with state := .ending, pendingOutcome := some (.suspend .dry) }
                ∧ s.joined t b (.stop c.tag))
          ∧ { t with stations := s.stations, ice := s.ice, latches := s.latches } = s)

/-- Stations lost one after another, each from the state that the losses before it left (R165). -/
def State.lostInTurn : List Nat → State → State → Prop
  | [], s, t => t = s
  | a :: as, s, t => ∃ w : State, s.lostAt w a ∧ State.lostInTurn as w t

/-! ## What all work under way comes to when it ends at once (R110, R133, R118, R135) -/

/-- A figure of every station, added up. -/
def State.totalOf (s : State) (f : Station → Nat) : Nat := (s.stations.map (fun x => f x.2)).sum

/-- The money that the end of a station's dispense or session debits the accounts meant with: the ice delivered of one
that has started, and the deposit of an OUT session. -/
def State.debitAtEnd (s : State) (who : Nat → Bool) (st : Station) : Nat :=
  match st.device with
  | .chute _ c => match c.job with
    | some d => if who d.account && d.started then (d.delivered + d.current) * d.price else 0
    | none => 0
  | .gate _ g => match g.session with
    | some x => if who x.account && x.dir == .out then x.count * s.depositOf x.ctype else 0
    | none => 0
  | .weigh _ _ => 0
  | .icePlant => 0

/-- The money that the close of a station's session credits the accounts meant with: the deposit of an IN session. -/
def State.creditAtEnd (s : State) (who : Nat → Bool) (st : Station) : Nat :=
  match st.device with
  | .gate _ g => match g.session with
    | some x => if who x.account && x.dir == .into then x.count * s.depositOf x.ctype else 0
    | none => 0
  | .chute _ _ => 0
  | .weigh _ _ => 0
  | .icePlant => 0

/-- The crates of a type that the close of a station's session moves in a direction for the accounts meant. -/
def Station.cratesAtEnd (who : Nat → Bool) (dir : Direction) (ctype : Nat) (st : Station) : Nat :=
  match st.device with
  | .gate _ g => match g.session with
    | some x => if who x.account && x.dir == dir && x.ctype == ctype then x.count else 0
    | none => 0
  | .chute _ _ => 0
  | .weigh _ _ => 0
  | .icePlant => 0

/-- The kilograms of ice that the end of a station's dispense is charged for, one that has started. -/
def Station.iceCharged (who : Nat → Bool) (st : Station) : Nat :=
  match st.device with
  | .chute _ c => match c.job with
    | some d => if who d.account && d.started then d.delivered + d.current else 0
    | none => 0
  | .gate _ _ => 0
  | .weigh _ _ => 0
  | .icePlant => 0

/-- The figures of sales of a lot's crates in parts, one after another, each from what the sales before it left (R80,
R88). -/
def soldParts : Nat → Nat → List Nat → List Nat
  | _, _, [] => []
  | nr, cr, k :: ks => soldNet nr cr k :: soldParts (nr - soldNet nr cr k) (cr - k) ks

end Sys2Proof.Machine
end

