-- ==== Sys2Proof/Certificates/Slice0/Obligations.lean ====
section
/-! DEFINITION. The statements for the provers, from the numbered rules of spec/. -/

section

open Sys2Proof Sys2Proof.Machine

/-! ## The step, reset and the laws kept by every step -/

/-- One step takes the command at the front of the queue and runs it on the state with the queue's rest. On an empty
queue the part idles: the model's choice, log 2. -/
def Obligations.StepRunsFrontCommand : Prop :=
  ∀ (c : Instr) (q : List Instr) (s : State),
    step (s.withPending (c :: q)) = exec c (s.withPending q) ∧ step (s.withPending []) = .next (s.withPending [])

/-- Every law of Safety.lean holds of the part right after power-on. -/
def Obligations.LawsHoldAtReset : Prop :=
  MoneyLaw State.reset ∧ HoldLaw State.reset ∧ CreditLaw State.reset ∧ ClaimLaw State.reset ∧ LotFigures State.reset
    ∧ LotStoreLaw State.reset ∧ PriceLaw State.reset ∧ CrateLaw State.reset ∧ ScrewLaw State.reset
    ∧ OperatingLaw State.reset ∧ TablesLaw State.reset ∧ IndexLaw State.reset ∧ RangeLaw State.reset

/-- R6: no step changes that all balances and the saturation residue sum to zero. -/
def Obligations.MoneyLawKept : Prop := ∀ s t : State, MoneyLaw s → step s = .next t → MoneyLaw t

/-- R10 and the second half of R102: holds, held amounts and dispenses stay matched at every step. -/
def Obligations.HoldLawKept : Prop := ∀ s t : State, HoldLaw s → step s = .next t → HoldLaw t

/-- R8: no step leaves an OPEN boat or buyer account with available credit below zero. -/
def Obligations.CreditLawKept : Prop := ∀ s t : State, CreditLaw s → step s = .next t → CreditLaw t

/-- R143 with R50: occupied entries and owed claims stay within 128, and the owed claims are those held. -/
def Obligations.ClaimLawKept : Prop := ∀ s t : State, ClaimLaw s → step s = .next t → ClaimLaw t

/-- R37, R47 and R48: at every step each lot stays in one place, its ring's queue or its ring's offer. -/
def Obligations.LotStoreLawKept : Prop := ∀ s t : State, LotStoreLaw s → step s = .next t → LotStoreLaw t

/-- R88, R89, R54 and R56: lots keep their figures, and prices stay between effective floor and start price. -/
def Obligations.LotFiguresAndPricesKept : Prop :=
  ∀ s t : State, step s = .next t → (LotFigures s → LotFigures t) ∧ (PriceLaw s → PriceLaw t)

/-- R120: the crate law of every type is kept by every step. -/
def Obligations.CrateLawKept : Prop := ∀ s t : State, CrateLaw s → step s = .next t → CrateLaw t

/-- R101 and R102: the latch list and the one screw stay matched with the dispenses at every step. -/
def Obligations.ScrewLawKept : Prop := ∀ s t : State, ScrewLaw s → step s = .next t → ScrewLaw t

/-- R77, R166, R181 and R179: in LOAD the poller stays OFF and the rings IDLE; in RUN HALL is present; an office frame
waits only behind a waiting response. -/
def Obligations.OperatingLawKept : Prop := ∀ s t : State, OperatingLaw s → step s = .next t → OperatingLaw t

/-- Tables 10-3, 1-1, 6-1 and 10-4: every step keeps the tables in canonical form, their indices in their numberings,
and within their ranges: the hall time, the accounts' fields, the holds' amounts, the HALL parameters, the crate types,
the ports' counters and receive stages, the command lists, the miss counts, the answer queue, the latches' counts, the
office floor level and the notice level. -/
def Obligations.TablesAndRangesKept : Prop :=
  ∀ s t : State, step s = .next t → TablesLaw s → TablesLaw t ∧ (IndexLaw s → IndexLaw t) ∧ (RangeLaw s → RangeLaw t)

/-! ## The envelope, power-on and the hall timer -/

/-- R200: the check of the nine digits is 29B1, and what the port puts on a line for a frame is read back as that
frame, with no condition but an overrun. -/
def Obligations.FrameRoundTrip : Prop :=
  (∀ (f : Frame) (p : Port), f.payload.length ≤ 120 →
    unescape (frameWire f) = (frameBody f ++ be 2 (crc (frameBody f)).toNat, false)
      ∧ frameOf (unescape (frameWire f)).1 = f
      ∧ judge p (frameWire f) false = { f := false, c := false, l := false, o := p.full })
  ∧ crc [0x31, 0x32, 0x33, 0x34, 0x35, 0x36, 0x37, 0x38, 0x39] = 0x29B1#16

/-- R181 and the power-on sentences of the chapters, from any state. The stall mark `told`, the queue of commands and
the counter of choices are the model's own (logs 24, 26). -/
def Obligations.PowerOnState : Prop :=
  ∀ (s : State),
    ∃ t, exec .powerOn s = .next t ∧ t.pending = s.pending ∧ t.choices = s.choices
      ∧ t.op = .load ∧ t.hall = none ∧ t.clock = { tod := 0, day := 0 } ∧ t.noticeLevel = 0
      ∧ (∀ n, t.latchAt n = Latch.clear)
      ∧ (∀ n, t.account n = if n = 0 then some Account.hallReset else none)
      ∧ t.bank.residue = 0 ∧ t.bank.holds = [] ∧ t.bank.nextHold = 1
      ∧ t.queue = { records := [], owed := 0, next := 1 }
      ∧ t.lotStore = { lots := [], reserved := 0, next := 1 }
      ∧ (∀ r, t.ring r = Ring.reset ∧ t.slot r = BoardSlot.reset)
      ∧ t.species = [] ∧ t.profiles = [] ∧ t.crateTypes = [] ∧ t.keypads = [] ∧ t.stations = []
      ∧ t.ice.screw = .dry ∧ t.ice.officeFloor = 0 ∧ t.ice.latch = [] ∧ t.ice.low = false ∧ t.ice.level = none
      ∧ t.ice.emptyFlag = none ∧ t.poller.state = .off ∧ t.poller.cycleTimer = none
      ∧ (∀ l, t.port l = Port.reset) ∧ t.floorLine.cond = .up ∧ t.floorLine.silence = none
      ∧ t.boards.answers = [] ∧ t.boards.showing = [] ∧ (∀ n, t.textLine n = [])

/-- R197, R199 and R135: a tick raises the time of day by one, or sets it to 0 and raises the day, 65,535 going on to
0; the hall time is 0 at power-on and kept across RESTART. Every running timer and every station's age count the tick,
the gates' idle timers but in LISTEN, and nothing else changes. That a timer counts on past its limit, its expiry being
a command of its own, is the model's choice: log 9. -/
def Obligations.TickRule : Prop :=
  ∀ (s : State),
    (∃ t, exec .hallTick s = .next t
      ∧ t.clock.tod = (if s.clock.tod = 86399999 then 0 else s.clock.tod + 1)
      ∧ t.clock.day = (if s.clock.tod = 86399999 then (if s.clock.day = 65535 then 0 else s.clock.day + 1)
          else s.clock.day)
      ∧ (∀ r, t.ring r = { s.ring r with timer := (s.ring r).timer.map Timer.tick }
          ∧ t.slot r = { s.slot r with pace := (s.slot r).pace.map Timer.tick })
      ∧ (∀ x : Timer, x.tick = { elapsed := x.elapsed + 1, limit := x.limit })
      ∧ (∀ a, s.station a = none → t.station a = none)
      ∧ (∀ a st, s.station a = some st → ∃ u, t.station a = some u ∧ { u with device := st.device, age := st.age } = st
          ∧ u.age = st.age + 1 ∧ (st.device = .icePlant → u.device = .icePlant))
      ∧ (∀ a cfg c, s.chuteAt a = some (cfg, c) →
          t.chuteAt a = some (cfg, { c with job := c.job.map (fun d => { d with wait := d.wait.map Timer.tick }) }))
      ∧ (∀ a dir g, s.gateAt a = some (dir, g) → t.gateAt a = some (dir,
          if s.poller.state = .listen then g
          else { g with session := g.session.map (fun x => { x with idle := x.idle.tick }) }))
      ∧ (∀ a cfg ch, s.weighAt a = some (cfg, ch) →
          ∃ x, t.weighAt a = some x ∧ x.1 = cfg ∧ x.2.tracker = ch.tracker
            ∧ (∀ d, ch.state = .capture d → x.2.state = .capture { d with timer := d.timer.tick })
            ∧ ((∀ d, ch.state ≠ .capture d) → x.2.state = ch.state))
      ∧ t.poller = { s.poller with
          cycleTimer := s.poller.cycleTimer.map Timer.tick
          breakTimer := s.poller.breakTimer.map Timer.tick
          poll := s.poller.poll.map (fun p => { p with phase := match p.phase with
            | .awaiting w => .awaiting w.tick
            | .due => .due
            | .staged => .staged
            | .onLine => .onLine }) }
      ∧ { t.boards with slots := s.boards.slots } = s.boards
      ∧ t.floorLine = { s.floorLine with silence := s.floorLine.silence.map Timer.tick }
      ∧ { t with clock := s.clock, rings := s.rings, stations := s.stations, poller := s.poller,
                 floorLine := s.floorLine, boards := s.boards } = s)
      ∧ State.reset.clock = { tod := 0, day := 0 }
      ∧ (∀ src p t, exec (.restart src p) s = .next t → t.clock = s.clock)

/-! ## Line ports (chapter 8) -/

/-- R150, R200, R149, R153, R168, R177, R157, R179 and R201: what conditions F, C, L and O are, and that a bad escape,
a flag among the bytes or an escape cut short is F; each condition raises its own counter; a frame that passes is
placed and ends floor silence; a frame with a condition ends a reply wait as a miss; a STOP of another length than 3
latches FLOOR_ERRORS whatever its destination; an office frame that passes waits behind a waiting response, or is
taken and served as it arrives, with the effect of the row of the table that carries it; the notices, and what no
frame's end changes. What frames of fewer than six bytes are judged for, and on which bytes C and L are judged where a
flag stands among them, is log 15; that a frame its owner would discard leaves the stage at once, and that the floor
port takes idle frames itself, is log 28; that a row stands for the arrival of its frame is log 3. -/
def Obligations.FrameEndJudged : Prop :=
  (∀ (p : Port) (wire : List Byte) (bad : Bool),
    ∀ bs, bs = (unescape wire).1 →
      ((judge p wire bad).o = true ↔ 2 ≤ p.rx.length)
      ∧ (6 ≤ bs.length →
          ((judge p wire bad).f = true ↔ bad = true ∨ (unescape wire).2 = true)
          ∧ ((judge p wire bad).c = true
              ↔ (crc (bs.take (bs.length - 2))).toNat ≠ fieldAt bs (bs.length - 2) 2)
          ∧ ((judge p wire bad).l = true ↔ fieldAt bs 3 1 ≠ bs.length - 6 ∨ 120 < fieldAt bs 3 1))
      ∧ (bs.length < 6 → (judge p wire bad).f = true ∧ (judge p wire bad).c = false
          ∧ ((judge p wire bad).l = true ↔ 4 ≤ bs.length ∧ fieldAt bs 3 1 ≠ 0)))
  ∧ (∀ (pre post : List Byte) (b c : Byte), pre.all (fun x => !(isReserved x)) = true →
      unescape pre = (pre, false)
      ∧ (b = 0xF5 ∨ b = 0xFA → (unescape (pre ++ b :: post)).2 = true)
      ∧ (unescape (pre ++ [0xF7])).2 = true
      ∧ (c ≠ 0xD5 → c ≠ 0xDA → c ≠ 0xD7 → (unescape (pre ++ 0xF7 :: c :: post)).2 = true)
      ∧ (c = 0xD5 ∨ c = 0xDA ∨ c = 0xD7 → unescape (pre ++ 0xF7 :: c :: post)
          = (pre ++ (c ^^^ 0x20) :: (unescape post).1, (unescape post).2)))
  ∧ (∀ (l : LineId) (wire : List Byte) (bad : Bool) (s : State),
    ∃ t, exec (.frameEnd l wire bad) s = .next t
      ∧ (l ≠ .office ∨ s.office.stage ≠ none ∨ (judge s.office wire bad).any = true →
          (t.port l).cntF = (if (judge (s.port l) wire bad).f then min 65535 ((s.port l).cntF + 1) else (s.port l).cntF)
          ∧ (t.port l).cntC = (if (judge (s.port l) wire bad).c then min 65535 ((s.port l).cntC + 1) else (s.port l).cntC)
          ∧ (t.port l).cntL = (if (judge (s.port l) wire bad).l then min 65535 ((s.port l).cntL + 1) else (s.port l).cntL)
          ∧ (t.port l).cntO = (if (judge (s.port l) wire bad).o then min 65535 ((s.port l).cntO + 1) else (s.port l).cntO)
          ∧ (t.port l).cntB = (s.port l).cntB)
      ∧ (t.port l).inBreak = (s.port l).inBreak
      ∧ (l = .office → s.office.stage ≠ none ∨ (judge s.office wire bad).any = true →
          { t with office := s.office } = s
          ∧ t.office.onLine = s.office.onLine ∧ t.office.stage = s.office.stage
          ∧ t.office.rx = (if (judge s.office wire bad).any then s.office.rx
              else s.office.rx ++ [frameOf (unescape wire).1]))
      ∧ (l = .office → s.office.stage = none → s.office.rx = [] → (judge s.office wire bad).any = false →
          ∀ i : Instr, i.wellFormed = true → officeFrame i = some (frameOf (unescape wire).1) → exec i s = .next t)
      ∧ (l = .floor → (judge s.floor wire bad).any = true →
          { t with floor := s.floor, latches := s.latches } = s ∧ t.floor.rx = s.floor.rx
            ∧ t.latchAt 16 = (s.latchAt 16).occur s.clock .none (some .floorErrors)
            ∧ (∀ n, n ≠ 16 → t.latchAt n = s.latchAt n))
      ∧ (l = .floor → (judge s.floor wire bad).any = false →
          (∀ h, s.hall = some h → t.floorLine.silence = some { elapsed := 0, limit := h.floorSilence })
            ∧ (s.hall = none → t.floorLine.silence = none)
            ∧ t.floor.rx = (if (frameOf (unescape wire).1).kind = 0x10 then s.floor.rx
                else (s.floor.rx ++ [frameOf (unescape wire).1]).dropWhile
                  (fun g => decide (¬ (g.kind = 0x11 ∧ g.dst = 0))))
            ∧ (∀ k, k = (if (frameOf (unescape wire).1).kind = 0x10 then 0
                  else misfitStops (s.floor.rx ++ [frameOf (unescape wire).1])) →
                t.latchAt 16 = (s.latchAt 16).floorErrors s.clock k
                ∧ (s.floorLine.cond ≠ .silent → k = 0 → t.latches = s.latches))
            ∧ (s.floorLine.cond ≠ .silent → t.floorLine.cond = s.floorLine.cond
                ∧ t.floor = { s.floor with rx := t.floor.rx } ∧ (∀ n, n ≠ 16 → t.latchAt n = s.latchAt n)
                ∧ { t with floor := s.floor, floorLine := s.floorLine, latches := s.latches } = s)
            ∧ (s.floorLine.cond = .silent → t.floorLine.cond = .up ∧ s.recovered t))
      ∧ (l = .quay → (judge s.quay wire bad).any = true →
          t.latchAt 15 = (s.latchAt 15).occur s.clock s.awaitedSubject none
            ∧ (s.awaited = none → { t with quay := s.quay, latches := s.latches } = s)
            ∧ (∀ a, s.awaited = some a → ∀ st, s.station a = some st →
                st.enabled = true → s.missed t a st ∧ s.polledOn t a))
      ∧ (l = .quay → (judge s.quay wire bad).any = false →
          { t with quay := s.quay } = s ∧ t.quay = { s.quay with rx := t.quay.rx }
            ∧ t.quay.rx = (s.quay.rx ++ [frameOf (unescape wire).1]).dropWhile
                (fun g => s.quayVerdict g == .discard)))

/-- R152, R153, R165 and R69: the entry of a line to BREAK, and what it does to the poller and to the floor. Whether a
quay frame's cut or the BREAK comes first is free (log 5). Where no reply wait ends with a cut frame, commands stay in
their lists and records stand, and a poll in the stage is withdrawn. From LISTEN the gates' idle timers start again
(R135), and that the deadlines of their sessions move with them is log 36. -/
def Obligations.LineBreakEnters : Prop :=
  ∀ (l : LineId) (spacing : Nat) (cut : Bool) (s : State),
    ∃ t, exec (.lineBreak l spacing cut) s = .next t
      ∧ (s.hall = none ∨ (s.port l).inBreak = true ∨ spacing ≤ s.par.breakTime → t = s)
      ∧ (∀ h, s.hall = some h → (s.port l).inBreak = false → h.breakTime < spacing →
          (t.port l).inBreak = true ∧ (t.port l).cntB = min 65535 ((s.port l).cntB + 1)
            ∧ (t.port l).cntF = (if cut then min 65535 ((s.port l).cntF + 1) else (s.port l).cntF)
            ∧ (l = .office → { t with office := s.office } = s)
            ∧ (l = .quay → t.latchAt 3 = (s.latchAt 3).occur s.clock .none none
                ∧ (s.poller.state = .polling →
                    t.poller = { state := .broken .polling, cycleTimer := none, cycle := none, startDue := false,
                                 poll := none,
                                 breakTimer := some { elapsed := 0, limit := h.missLimit * h.cyclePeriod } })
                ∧ (s.poller.state = .listen →
                    t.poller = { state := .broken .listen, cycleTimer := none, cycle := none, startDue := false,
                                 poll := none,
                                 breakTimer := some { elapsed := 0, limit := h.missLimit * h.cyclePeriod } })
                ∧ (s.poller.state = .listen → ∀ a dir g, s.gateAt a = some (dir, g) →
                    ∃ x, t.gateAt a = some x ∧ x.2 = { g with
                      session := g.session.map (fun y => { y with
                        deadline := s.clock.later (h.gateIdle * 1000)
                        idle := { elapsed := 0, limit := h.gateIdle * 1000 } }) })
                ∧ (s.poller.state = .polling ∨ s.poller.state = .listen → cut = false ∨ s.awaited = none →
                    (∀ a st, s.station a = some st → ∃ u, t.station a = some u
                      ∧ { u with carried := st.carried, device := st.device } = st
                      ∧ ((∀ dir g, st.device ≠ .gate dir g) ∨ s.poller.state = .polling → u.device = st.device))
                    ∧ t.quay.onLine = s.quay.onLine
                    ∧ t.quay.stage = (if s.poller.poll.any (fun p => p.phase == .staged) then none else s.quay.stage)
                    ∧ { t with quay := s.quay, poller := s.poller, stations := s.stations, latches := s.latches,
                               choices := s.choices } = s)
                ∧ (s.poller.state = .off → t.poller = s.poller
                    ∧ { t with quay := s.quay, latches := s.latches, choices := s.choices } = s))
            ∧ (l = .floor → t.floorLine = { s.floorLine with cond := .broken }
                ∧ { t with floor := s.floor, floorLine := s.floorLine, latches := s.latches, rings := s.rings,
                           boards := s.boards } = s
                ∧ (s.floorLine.cond = .up → t.latchAt 4 = (s.latchAt 4).occur s.clock .none none
                    ∧ (∀ r, (s.ring r).state = .leadIn ∨ (s.ring r).state = .descending →
                        t.ring r = { s.ring r with state := .held, heldOffice := false, heldFloor := true,
                                                   setSeen := true, stall := .none, told := false, timer := none })
                    ∧ (∀ r, (s.ring r).state ≠ .leadIn → (s.ring r).state ≠ .descending → t.ring r = s.ring r))
                ∧ (s.floorLine.cond ≠ .up → t.rings = s.rings ∧ t.boards = s.boards ∧ t.latchAt 4 = s.latchAt 4)))

/-- R152, R153, R165, R69 and R177: the end of BREAK on each line. Which ring goes on first at a floor recovery, and
whether rings or composer do, is free: log 5. -/
def Obligations.BreakEndLeaves : Prop :=
  ∀ (l : LineId) (s : State),
    ∃ t, exec (.breakEnd l) s = .next t
      ∧ ((s.port l).inBreak = false → t = s)
      ∧ ((s.port l).inBreak = true →
          (t.port l).inBreak = false ∧ (t.port l).cntB = (s.port l).cntB
            ∧ (l = .office → { t with office := s.office } = s)
            ∧ (l = .quay →
                (s.poller.state = .broken .polling → t.poller.state = .polling ∧ t.poller.breakTimer = none
                    ∧ t.poller.cycleTimer = some { elapsed := 0, limit := s.par.cyclePeriod }
                    ∧ (t.poller.cycle = some true ∨ (t.poller.cycle = none ∧ s.nextEnabled 0 = none)))
                ∧ (s.poller.state = .broken .listen →
                    t.poller = { s.poller with state := .listen, breakTimer := none }
                      ∧ (∀ a st, s.station a = some st →
                          t.station a = some { st with lastHeard := some s.clock, age := 0 })
                      ∧ { t with quay := s.quay, poller := s.poller, stations := s.stations } = s)
                ∧ (s.poller.state.isBroken = false → { t with quay := s.quay } = s))
            ∧ (l = .floor →
                (timerDue s.floorLine.silence = true → t.floorLine = { s.floorLine with cond := .silent }
                    ∧ { t with floor := s.floor, floorLine := s.floorLine } = s)
                ∧ (timerDue s.floorLine.silence = false → t.floorLine = { s.floorLine with cond := .up }
                    ∧ s.recovered t)))

/-- R151, R156, R157, R170, R174 and R179: the end of a frame on a line: the waiting frame goes onto it; the reply
wait of a poll just sent begins; where a poll is due the poller goes on from the address polled last, as STATIONS then
stands; the floor transmitter places the front answer, else the board frame of the lowest-numbered ready ring with its
hold marks, else the lowest pending text line; the management unit takes the frame that waits at the front of the
office receive stage, with the effect of the row of the table that carries it. A frame placed on an idle line goes
onto it at once: log 29; that a poll whose stage is full is chosen when the stage is free: log 12; that a row stands
for the arrival of its frame: log 3. -/
def Obligations.FrameSentMovesOn : Prop :=
  ∀ (l : LineId) (s : State),
    ∃ t, exec (.frameSent l) s = .next t
      ∧ ((s.port l).onLine = none → t = s)
      ∧ ((s.port l).onLine ≠ none →
          (∀ g, (s.port l).stage = some g → (t.port l).onLine = some g)
            ∧ (l = .office → s.office.rx = [] →
                t.office = { s.office with onLine := s.office.stage, stage := none }
                ∧ { t with office := s.office } = s)
            ∧ (l = .office → ∀ f, s.office.rx.head? = some f →
                ∀ i : Instr, i.wellFormed = true → officeFrame i = some f →
                  exec i { s with office := { s.office with onLine := s.office.stage, stage := none } } = .next t)
            ∧ (l = .floor →
                { t with floor := s.floor, boards := s.boards, rings := s.rings } = s
                  ∧ (∀ r, (s.ring r).sameButMarks (t.ring r))
                  ∧ (s.floorLine.cond ≠ .up → t.floor = { s.floor with onLine := s.floor.stage, stage := none }
                      ∧ t.boards = s.boards ∧ t.rings = s.rings)
                  ∧ (∀ x, s.boards.answers.head? = some x → s.floorLine.cond = .up →
                      (s.floor.stage = none → t.floor.onLine = some x.frame)
                      ∧ (s.floor.stage ≠ none → t.floor.stage = some x.frame))
                  ∧ (∀ r : RingNo, ∀ c, (s.slot r).content = some c → s.floorLine.cond = .up →
                      s.boards.answers = [] → s.op = .run → (s.slot r).readiness = .ready →
                      (∀ q : RingNo, q.num < r.num → s.boardDue q = false) →
                      (s.floor.stage = none →
                        t.floor.onLine = some (c.frame r (s.ring r).setSeen (s.ring r).clearSeen))
                      ∧ (s.floor.stage ≠ none →
                        t.floor.stage = some (c.frame r (s.ring r).setSeen (s.ring r).clearSeen))
                      ∧ t.ring r = { s.ring r with setSeen := false, clearSeen := false }
                      ∧ t.slot r = { s.slot r with readiness := .none
                                                   pace := some { elapsed := 0, limit := s.par.boardInterval } })
                  ∧ (∀ n, s.boards.showing.head? = some n → s.floorLine.cond = .up → s.boards.answers = [] →
                      (∀ q : RingNo, s.boardDue q = false) →
                      (s.floor.stage = none → t.floor.onLine = some (textFrame n (s.textLine n)))
                      ∧ (s.floor.stage ≠ none → t.floor.stage = some (textFrame n (s.textLine n))
                          ∧ t.boards.showing = s.boards.showing.drop 1)))
            ∧ (l = .quay →
                { t with quay := s.quay, poller := s.poller, stations := s.stations } = s
                  ∧ (s.poller.poll = none → t.poller = s.poller ∧ t.stations = s.stations)
                  ∧ (∀ p, s.poller.poll = some p →
                      (p.phase ≠ .due → t.poller = { s.poller with poll := t.poller.poll }
                          ∧ t.stations = s.stations)
                        ∧ (p.phase = .onLine → t.poller.poll
                            = some { p with phase := .awaiting { elapsed := 0, limit := s.par.replyTimeout } })
                        ∧ (p.phase = .staged → t.poller.poll = some { p with phase := .onLine })
                        ∧ (p.phase = .due → State.polledOn
                            { s with quay := { s.quay with onLine := s.quay.stage, stage := none } } t p.station))))

/-- R153, R69 and R66: silence takes the floor line down, holds the rings in LEAD_IN and DESCENDING, and latches
FLOOR_DOWN; nothing is placed on the line. -/
def Obligations.FloorSilenceHoldsRings : Prop :=
  ∀ (s : State),
    ∃ t, exec .floorSilence s = .next t
      ∧ (s.floorLine.cond ≠ .up ∨ timerDue s.floorLine.silence = false → t = s)
      ∧ (s.floorLine.cond = .up → timerDue s.floorLine.silence = true →
          t.floorLine = { s.floorLine with cond := .silent }
            ∧ t.latchAt 4 = (s.latchAt 4).occur s.clock .none none ∧ (∀ n, n ≠ 4 → t.latchAt n = s.latchAt n)
            ∧ (∀ r, (s.ring r).state = .leadIn ∨ (s.ring r).state = .descending →
                t.ring r = { s.ring r with state := .held, heldOffice := false, heldFloor := true, setSeen := true,
                                           stall := .none, told := false, timer := none })
            ∧ (∀ r, (s.ring r).state ≠ .leadIn → (s.ring r).state ≠ .descending → t.ring r = s.ring r)
            ∧ t.boards.answers = s.boards.answers ∧ t.boards.showing = s.boards.showing
            ∧ { t with floorLine := s.floorLine, latches := s.latches, rings := s.rings, boards := s.boards } = s)

/-! ## The quay poller (chapter 8) -/

/-- R156 and R157: a wrap of the cycle timer starts a cycle at the lowest enabled address, or marks a start due. Ticks
counted past the wrap stay counted: log 9; a poll that finds the stage full is chosen when the stage is free: log 12. -/
def Obligations.CycleWrapStarts : Prop :=
  ∀ (s : State),
    ∃ t, exec .cycleTimerWrap s = .next t
      ∧ (s.poller.state ≠ .polling → t = s)
      ∧ (∀ x, s.poller.cycleTimer = some x → s.poller.state = .polling → x.elapsed < x.limit → t = s)
      ∧ (∀ x, s.poller.cycleTimer = some x → s.poller.state = .polling → x.limit ≤ x.elapsed →
          t.poller.state = .polling
            ∧ t.poller.cycleTimer = some { elapsed := x.elapsed - x.limit, limit := s.par.cyclePeriod }
            ∧ { t with poller := s.poller, stations := s.stations, quay := s.quay } = s
            ∧ (s.poller.cycle ≠ none → t.poller.startDue = true ∧ t.poller.poll = s.poller.poll
                ∧ t.poller.cycle = s.poller.cycle ∧ t.stations = s.stations ∧ t.quay = s.quay)
            ∧ (s.poller.cycle = none → s.nextEnabled 0 = none →
                t.poller.cycle = none ∧ t.poller.poll = none ∧ t.quay = s.quay)
            ∧ (∀ a, s.nextEnabled 0 = some a → s.poller.cycle = none → t.poller.cycle = some false
                ∧ s.pollPlaced t 0 a false
                ∧ t.quay = { s.quay with onLine := t.quay.onLine, stage := t.quay.stage }
                ∧ (∀ st, s.station a = some st → ∃ u, t.station a = some u ∧ u.commands = st.commands)))

/-- R157, R158 and R156: the end of the reply wait is a miss, which at the miss limit makes an ONLINE station OFFLINE
with STATION_LOST, and the poller goes on. A station disabled while its reply is awaited is not part of this statement: log 12. -/
def Obligations.ReplyTimeoutMisses : Prop :=
  ∀ (s : State),
    ∃ t, exec .replyTimeout s = .next t
      ∧ (s.replyDue = false → t = s)
      ∧ (∀ a st, s.awaited = some a → s.station a = some st → s.replyDue = true → st.enabled = true →
          s.missed t a st ∧ s.polledOn t a
            ∧ (st.live = .offline ∨ min 15 (st.misses + 1) < s.par.missLimit →
                { t with poller := s.poller, stations := s.stations, quay := s.quay } = s))

/-- R157, R158, R160, R201, R25, R98, R126 and R113: the polled station's reply that fits its layout sets its record,
removes the command the poll carried, makes it ONLINE and its channel IDLE; outside a roll-call its reading, report
and item then go to the station's owner, and the poller goes on; a reply that does not fit is a miss with QUAY_ERRORS.
The arrival is the hall time at which the poller takes the frame: log 3; a frame the poller would discard leaves the
stage at once: log 28. Which length fits an item code outside the list is log 11; that the item of a gate's reply with
the sensor fault flag is judged in IDLE as at any time is log 34. -/
def Obligations.QuayReplyHeard : Prop :=
  (∀ (f : Frame) (s : State),
    ∃ t, exec (.quayReply f) s = .next t
      ∧ (∀ a st, s.awaited = some a → s.station a = some st → st.enabled = true → f.src.toNat = a → a ≠ 0 →
          f.kind = 0x02 → s.quay.rx = [] ∨ s.quay.rx.head? = some f →
          (st.device.fits f.payload = true →
            (∃ u, t.station a = some u ∧ u.misses = 0 ∧ u.live = .online ∧ u.lastHeard = some s.clock ∧ u.age = 0
              ∧ u.enabled = true
              ∧ (s.poller.cycle = some true → u.commands = (if st.carried then st.commands.drop 1 else st.commands)
                  ∧ { t with poller := s.poller, stations := s.stations, quay := s.quay } = s))
            ∧ (∀ v : State, v = State.modStation { s with quay := { s.quay with rx := s.quay.rx.drop 1 }
                                                          poller := { s.poller with poll := none } }
                  a (fun x => x.replied s.clock) →
                ∀ w : State, w = (if s.poller.cycle = some true then v else v.handReply a f.payload false) →
                  { t with quay := w.quay, poller := w.poller, stations := w.stations } = w
                    ∧ (∀ b, (t.station b).map (fun x => { x with carried := false })
                        = (w.station b).map (fun x => { x with carried := false }))
                    ∧ w.polledOn t a))
          ∧ (st.device.fits f.payload = false → s.missed t a st ∧ s.polledOn t a
              ∧ t.latchAt 15 = (s.latchAt 15).occur s.clock (.station a) none))
      ∧ (f.src = 0 ∨ (f.kind ≠ 0x01 ∧ f.kind ≠ 0x02 ∧ f.kind ≠ 0x03) ∨ s.poller.state = .off
            ∨ (f.kind = 0x02 ∧ s.poller.state = .polling ∧ s.awaited ≠ some f.src.toNat) →
          { t with quay := s.quay } = s))
  ∧ (∀ (s : State) (a : Nat) (payload : List Byte),
      (∀ x, s.weighAt a = some x → ∀ y, readWeigh payload = some y →
          s.handReply a payload true = s.weighReading a y.gross y.motion y.overload
          ∧ s.handReply a payload false = (match y.item with
              | .none => s.weighReading a y.gross y.motion y.overload
              | .draft account species ctype count =>
                (s.weighReading a y.gross y.motion y.overload).draftItem a account species ctype count
              | .cancel => (s.weighReading a y.gross y.motion y.overload).cancelItem a))
      ∧ (∀ x, s.chuteAt a = some x → ∀ y, readChute payload = some y →
          ∀ v, v = (match y.status with | none => s | some z => s.runReport a y.tag z y.kg) →
            s.handReply a payload true = v
            ∧ ∀ w, w = (if y.stopButton = true then v.stopButton a else v) →
              s.handReply a payload false = (match y.request with
                | none => w
                | some (account, ordered) => w.iceRequest a account ordered))
      ∧ (∀ x, s.gateAt a = some x → ∀ y, readGate payload = some y →
          s.handReply a payload true = s.gateReport a y.tag y.barrierOpen y.count y.sensor
          ∧ s.handReply a payload false = (match y.item with
              | .none => s.gateReport a y.tag y.barrierOpen y.count y.sensor
              | .open_ account ctype direction =>
                (s.gateReport a y.tag y.barrierOpen y.count y.sensor).gateOpen a account ctype direction
              | .close => (s.gateReport a y.tag y.barrierOpen y.count y.sensor).gateCloseItem a))
      ∧ (∀ st, s.station a = some st → ∀ y, readPlant payload = some y → st.device = .icePlant →
          s.handReply a payload true = s.binReading a y.level y.empty
          ∧ s.handReply a payload false = s.binReading a y.level y.empty))

/-- R162: another master's poll takes the poller from POLLING to LISTEN; in the other states it changes nothing but
that its frame leaves the stage. The command passes an empty stage: log 3. -/
def Obligations.ForeignPollListens : Prop :=
  ∀ (f : Frame) (s : State), f.kind = 0x01 ∨ f.kind = 0x03 → f.src ≠ 0 → s.quay.rx = [] ∨ s.quay.rx.head? = some f →
    ∃ t, exec (.foreignPoll f) s = .next t
      ∧ (s.poller.state ≠ .polling → { t with quay := s.quay } = s)
      ∧ (s.poller.state = .polling →
          t.poller = { state := .listen, cycleTimer := none, cycle := none, startDue := false, poll := none,
                       breakTimer := none }
            ∧ t.latchAt 1 = (s.latchAt 1).occur s.clock (.station f.src.toNat) none
            ∧ (∀ n, n ≠ 1 → t.latchAt n = s.latchAt n)
            ∧ (∀ a st, s.station a = some st →
                t.station a = some { st with lastHeard := some s.clock, age := 0, carried := false })
            ∧ t.quay.onLine = s.quay.onLine
            ∧ (∀ p, s.poller.poll = some p → t.quay.stage = if p.phase = .staged then none else s.quay.stage)
            ∧ { t with poller := s.poller, stations := s.stations, quay := s.quay, latches := s.latches } = s)

/-- R163, R201, R30, R43, R116 and R135: every reply heard in LISTEN, whatever its length, sets the station's record
and makes it ONLINE; its reading, report or bin level goes to the station's owner, and it brings no keypad item; of
one that does not fit its layout the owner takes nothing, and it latches QUAY_ERRORS. The arrival is the hall time at
which the poller takes the frame: log 3; which length fits an item code outside the list: log 11. -/
def Obligations.HeardReplyTaken : Prop :=
  ∀ (f : Frame) (s : State),
    ∃ t, exec (.heardReply f) s = .next t
      ∧ (∀ st, s.station f.src.toNat = some st → s.poller.state = .listen → st.enabled = true → f.src ≠ 0 →
          f.kind = 0x02 → s.quay.rx = [] ∨ s.quay.rx.head? = some f →
          (∃ u, t.station f.src.toNat = some u ∧ u.misses = 0 ∧ u.live = .online ∧ u.lastHeard = some s.clock
              ∧ u.age = 0)
          ∧ (st.device.fits f.payload = true →
            (∀ w : State, w = (State.modStation { s with quay := { s.quay with rx := s.quay.rx.drop 1 } }
                  f.src.toNat (fun x => x.replied s.clock)).handReply f.src.toNat f.payload true →
                { t with quay := w.quay } = w)
            ∧ (∀ cfg ch, s.weighAt f.src.toNat = some (cfg, ch) → (∀ d, ch.state ≠ .capture d) →
                { t with quay := s.quay, stations := s.stations } = s
                  ∧ ∃ x, t.weighAt f.src.toNat = some x ∧ (∀ d, x.2.state ≠ .capture d))
            ∧ (∀ dir g, s.gateAt f.src.toNat = some (dir, g) → g.session = none →
                ∃ x, t.gateAt f.src.toNat = some x ∧ x.2.session = none)
            ∧ (∀ cfg c, s.chuteAt f.src.toNat = some (cfg, c) → c.job = none →
                { t with quay := s.quay, stations := s.stations } = s ∧ t.jobAt f.src.toNat = none))
          ∧ (st.device.fits f.payload = false →
              (∀ w : State, w = State.modStation { s with quay := { s.quay with rx := s.quay.rx.drop 1 } }
                    f.src.toNat (fun x => x.replied s.clock) →
                  { t with quay := w.quay, latches := w.latches } = w)
                ∧ t.latchAt 15 = (s.latchAt 15).occur s.clock (.station f.src.toNat) none
                ∧ (∀ n, n ≠ 15 → t.latchAt n = s.latchAt n)))
      ∧ (s.poller.state = .off ∨ s.poller.state.isBroken = true ∨ f.src = 0 → { t with quay := s.quay } = s)

/-- R163, R165, R158, R41, R115, R132 and R114: the hearing interval and the break timer, each of the miss limit times
the cycle period, make ONLINE stations OFFLINE with STATION_LOST and their lists cleared; a lost channel's draft ends
LOST without a lot, a lost chute's dispense ends LOST charged for what it last reported, a lost gate's session closes
LOST, and the bin of a lost ICEPLANT station is unknown and so empty. At the break timer every ONLINE station is lost
so, one after another in ascending address, each from the state that those before it left: all of their lists are then
empty or hold their LOST answer alone, their claims and reservations are released, each dispense and session has its
record, and a station that was OFFLINE already is as it was, where it is no chute with a dispense, as no OFFLINE chute
is (R115). That the hearing interval ends at its last tick is the model's reading: log 10. -/
def Obligations.SilenceLosesStations : Prop :=
  ∀ (a : Nat) (s : State),
    (∃ t, exec (.hearingExpiry a) s = .next t
      ∧ (∀ st, s.station a = some st →
          (s.poller.state ≠ .listen ∨ st.live = .offline ∨ st.age < s.par.missLimit * s.par.cyclePeriod → t = s)
            ∧ (s.poller.state = .listen → st.live = .online → s.par.missLimit * s.par.cyclePeriod ≤ st.age →
                s.lostAt t a))
      ∧ (s.station a = none → t = s))
    ∧ (∃ t, exec .breakTimerExpiry s = .next t
        ∧ (s.poller.state.isBroken = false ∨ timerDue s.poller.breakTimer = false → t = s)
        ∧ (s.poller.state.isBroken = true → timerDue s.poller.breakTimer = true → Table.Sorted s.stations →
            State.lostInTurn ((s.stations.filter (fun x => x.2.live == .online)).map (fun x => x.1)) s
                { t with poller := s.poller }
              ∧ t.poller = { s.poller with breakTimer := none }
              ∧ (∀ b st, s.station b = some st → ∃ u, t.station b = some u ∧ u.live = .offline ∧ u.misses = st.misses
                  ∧ u.enabled = st.enabled ∧ u.lastHeard = st.lastHeard)
              ∧ (∀ b st, s.station b = some st → st.live = .offline → s.jobAt b = none → t.station b = some st)
              ∧ (∀ b st, s.station b = some st → st.live = .online →
                  (∀ cfg ch, s.weighAt b = some (cfg, ch) →
                      t.weighAt b = some (cfg, { tracker := { state := .moving, counter := 0, previous := none,
                                                              held := none }
                                                 state := .offline })
                      ∧ ((∀ d, ch.state ≠ .capture d) → (t.station b).map (fun x => x.commands) = some [])
                      ∧ (∀ d, ch.state = .capture d → (t.station b).map (fun x => x.commands)
                          = some (if st.enabled = true then [.result .lost] else [])))
                  ∧ (∀ cfg c, s.chuteAt b = some (cfg, c) → t.chuteAt b = some (cfg, { c with job := none })
                      ∧ (c.job = none → (t.station b).map (fun x => x.commands) = some [])
                      ∧ (∀ d, c.job = some d → (t.station b).map (fun x => x.commands)
                          = some (if st.enabled = true then [.answerEnded .lost (d.delivered + d.current)] else [])))
                  ∧ (∀ dir g, s.gateAt b = some (dir, g) →
                      (g.session = none → t.gateAt b = some (dir, g)
                        ∧ (t.station b).map (fun x => x.commands) = some [])
                      ∧ (∀ x, g.session = some x →
                          t.gateAt b = some (dir, { g with session := none
                                                           lastClose := some { count := x.count, cause := .lost } })
                          ∧ (t.station b).map (fun y => y.commands)
                              = some (if st.enabled = true then [.closed g.tag x.count .lost] else [])))
                  ∧ (st.device = .icePlant → t.ice.level = none ∧ t.ice.emptyFlag = none ∧ t.ice.screw = .dry
                      ∧ (t.station b).map (fun x => x.commands) = some []))
              ∧ t.lotStore = { s.lotStore with reserved := s.lotStore.reserved
                  - ((s.stations.filter (fun x => x.2.live == .online)).map (fun x => x.2.device.drafts)).sum }
              ∧ t.queue.owed = s.queue.owed
                  - ((s.stations.filter (fun x => x.2.live == .online)).map (fun x => x.2.device.claims)).sum
              ∧ t.queue.records.take s.queue.records.length = s.queue.records
              ∧ t.queue.records.length + ((s.stations.filter (fun x => x.2.live == .online)).map
                    (fun x => x.2.device.drafts)).sum
                  = s.queue.records.length + ((s.stations.filter (fun x => x.2.live == .online)).map
                    (fun x => x.2.device.claims)).sum
              ∧ (∀ r, (s.ring r).sameButTold (t.ring r))
              ∧ ((s.latchAt 6).count ≤ 255 → (t.latchAt 6).count
                  = min 255 ((s.latchAt 6).count + (s.stations.filter (fun x => x.2.live == .online)).length))
              ∧ { t with poller := s.poller, stations := s.stations, lotStore := s.lotStore, queue := s.queue,
                         rings := s.rings, bank := s.bank, ice := s.ice, crateTypes := s.crateTypes,
                         latches := s.latches, choices := s.choices } = s))

/-! ## Weigh channels and landing (chapter 2) -/

/-- R26, R27 and R28: what one reading does to a tracker; a reading that leaves it not STABLE leaves the channel's
state and its draft alone, and no other station. -/
def Obligations.TrackerReadsByRule : Prop :=
  ∀ (s : State) (a : Nat) (gross : Int) (motion overload : Bool),
    ∀ cfg ch, s.weighAt a = some (cfg, ch) →
      (overload = true → (s.weighReading a gross motion overload).weighAt a
          = some (cfg, { ch with tracker := { state := .fault, counter := 0, previous := none, held := none } }))
      ∧ (overload = false → (motion = true ∨ ch.tracker.previous = none
            ∨ ch.tracker.previous.any (fun p => decide (cfg.band < (gross - p).natAbs)) = true) →
          (s.weighReading a gross motion overload).weighAt a
            = some (cfg, { ch with tracker :=
                { state := .moving, counter := 0, previous := some gross, held := none } }))
      ∧ (∀ p, ch.tracker.previous = some p → overload = false → motion = false → (gross - p).natAbs ≤ cfg.band →
          (ch.tracker.state = .moving → ch.tracker.counter + 1 < cfg.stability →
            (s.weighReading a gross motion overload).weighAt a
              = some (cfg, { ch with tracker :=
                  { state := .moving, counter := ch.tracker.counter + 1, previous := some gross, held := none } }))
          ∧ (ch.tracker.state = .moving → ch.tracker.counter + 1 = cfg.stability →
            ((s.weighReading a gross motion overload).weighAt a).map (fun x => x.2.tracker)
              = some { state := .stable, counter := cfg.stability, previous := some gross,
                       held := some { gross := gross, at_ := s.clock } })
          ∧ (ch.tracker.state = .stable →
            ((s.weighReading a gross motion overload).weighAt a).map (fun x => x.2.tracker)
              = some { ch.tracker with previous := some gross }))
      ∧ ((∀ d, ch.state ≠ .capture d) →
          (∀ b, b ≠ a → (s.weighReading a gross motion overload).station b = s.station b)
            ∧ ((s.weighReading a gross motion overload).weighAt a).map (fun x => x.2.state) = some ch.state
            ∧ { s.weighReading a gross motion overload with stations := s.stations } = s)

/-- R35 and section 2.7: a capture above the capacity, or with no fish or less net than crates, lands nothing: the
reservation and the claim go back, and the RESULT names why. -/
def Obligations.CaptureRefusedLandsNothing : Prop :=
  ∀ (s : State) (a : Nat) (gross : Int),
    ∀ cfg ch, s.weighAt a = some (cfg, ch) → ∀ d, ch.state = .capture d →
      ((cfg.capacity : Int) < gross ∨ gross - (d.count * d.tare : Nat) ≤ 0
          ∨ ((gross - (d.count * d.tare : Nat)).toNat - (gross - (d.count * d.tare : Nat)).toNat * d.m / d.n)
              / d.netStep * d.netStep < d.count) →
        (s.capture a cfg ch d gross).weighAt a = some (cfg, { ch with state := .idle })
          ∧ (s.capture a cfg ch d gross).lotStore = { s.lotStore with reserved := s.lotStore.reserved - 1 }
          ∧ (s.capture a cfg ch d gross).queue = { s.queue with owed := s.queue.owed - 1 }
          ∧ (s.capture a cfg ch d gross).bank = s.bank
          ∧ (∀ r, (s.ring r).sameButTold ((s.capture a cfg ch d gross).ring r))
          ∧ s.joined (s.capture a cfg ch d gross) a
              (.resultGross (if (cfg.capacity : Int) < gross then .overload else .underweight) gross)

/-- R35 to R38: a capture that is not refused lands the lot whole: its fields, its place at the back of its ring's
queue, the boat's crates, deposit and day total, the LANDING record with the draft's claim, and RESULT CAPTURED. -/
def Obligations.CaptureLandsTheLot : Prop :=
  ∀ (s : State) (a : Nat) (gross : Int),
    ∀ cfg ch, s.weighAt a = some (cfg, ch) → ∀ d, ch.state = .capture d →
    ∀ boat, s.account d.boat = some boat → ∀ hall, s.account 0 = some hall →
      gross ≤ cfg.capacity → 0 < gross - (d.count * d.tare : Nat) →
      d.count ≤ (d.figures gross).net → s.lotStore.lots.length ≤ 256 →
      1 ≤ s.lotStore.next → s.lotStore.next ≤ 65535 →
        (d.figures gross).tare = d.count * d.tare
          ∧ (d.figures gross).fishAndIce = gross - (d.count * d.tare : Nat)
          ∧ (d.figures gross).allowance = (gross - (d.count * d.tare : Nat)).toNat * d.m / d.n
          ∧ (d.figures gross).net = ((gross - (d.count * d.tare : Nat)).toNat - (d.figures gross).allowance)
              / d.netStep * d.netStep
          ∧ s.lot s.newLotNumber = none ∧ 1 ≤ s.newLotNumber ∧ s.newLotNumber ≤ 65535
          ∧ (s.capture a cfg ch d gross).lot s.newLotNumber
              = some { boat := d.boat, species := d.species, ring := d.ring, ctype := d.ctype, crates := d.count,
                       remaining := d.count, gross := gross, tare := d.count * d.tare,
                       allowance := (d.figures gross).allowance, net := (d.figures gross).net,
                       netRemaining := (d.figures gross).net, soldNet := 0, soldCrates := 0, reserve := none,
                       offers := 0, landed := s.clock, station := a, state := .queued }
          ∧ (∀ n, n ≠ s.newLotNumber → (s.capture a cfg ch d gross).lot n = s.lot n)
          ∧ (s.capture a cfg ch d gross).lotStore.next
              = (if s.newLotNumber < 65535 then s.newLotNumber + 1 else 1)
          ∧ (s.capture a cfg ch d gross).lotStore.reserved = s.lotStore.reserved - 1
          ∧ (s.capture a cfg ch d gross).ring d.ring
              = { s.ring d.ring with queue := (s.ring d.ring).queue ++ [s.newLotNumber] }
          ∧ (∀ r, r ≠ d.ring → (s.capture a cfg ch d gross).ring r = s.ring r)
          ∧ s.wrote (s.capture a cfg ch d gross) (.landing s.newLotNumber d.boat d.species d.ctype d.count gross
              (d.count * d.tare) (d.figures gross).allowance (d.figures gross).net a)
          ∧ (s.capture a cfg ch d gross).queue.owed = s.queue.owed - 1
          ∧ (s.capture a cfg ch d gross).weighAt a = some (cfg, { ch with state := .idle })
          ∧ s.joined (s.capture a cfg ch d gross) a (.resultCaptured s.newLotNumber (d.figures gross).net)
          ∧ (d.boat ≠ 0 → Table.Sorted boat.crates → inBounds (boat.crateBalance d.ctype - d.count) →
              inBounds (boat.balance + (d.deposit * d.count : Nat)) →
              inBounds (hall.balance - (d.deposit * d.count : Nat)) →
              (∃ b, (s.capture a cfg ch d gross).account d.boat = some b
                ∧ b.balance = boat.balance + (d.deposit * d.count : Nat)
                ∧ b.crateBalance d.ctype = boat.crateBalance d.ctype - d.count
                ∧ b.totals = { boat.totals with
                    landed := min 4000000000 (boat.totals.landed + (d.figures gross).net) }
                ∧ b.held = boat.held ∧ b.limit = boat.limit ∧ b.state = boat.state ∧ b.cause = boat.cause
                ∧ b.flags.v = false)
              ∧ (∃ h, (s.capture a cfg ch d gross).account 0 = some h
                ∧ h.balance = hall.balance - (d.deposit * d.count : Nat))
              ∧ (s.capture a cfg ch d gross).bank.residue = s.bank.residue
              ∧ (s.capture a cfg ch d gross).bank.holds = s.bank.holds)

/-- R40 and R111: the capture timer's expiry ends a draft with RESULT TIMEOUT, and the wait timer's expiry ends a
request with cause TIMEOUT and 0 kg; neither does anything before its time. -/
def Obligations.WaitsRunOut : Prop :=
  ∀ (a : Nat) (s : State),
    (∃ t, exec (.captureTimeout a) s = .next t
      ∧ (∀ cfg ch, s.weighAt a = some (cfg, ch) →
          ((∀ d, ch.state ≠ .capture d) → t = s)
          ∧ (∀ d, ch.state = .capture d →
              (d.timer.elapsed < d.timer.limit → t = s)
              ∧ (d.timer.limit ≤ d.timer.elapsed →
                  t.weighAt a = some (cfg, { ch with state := .idle })
                    ∧ t.lotStore = { s.lotStore with reserved := s.lotStore.reserved - 1 }
                    ∧ t.queue = { s.queue with owed := s.queue.owed - 1 }
                    ∧ (∀ r, (s.ring r).sameButTold (t.ring r))
                    ∧ s.joined t a (.result .timeout)
                    ∧ { t with stations := s.stations, lotStore := s.lotStore, queue := s.queue, rings := s.rings,
                               latches := s.latches } = s)))
      ∧ (s.weighAt a = none → t = s))
    ∧ (∃ t, exec (.iceWaitTimeout a) s = .next t
        ∧ (s.jobAt a = none → t = s)
        ∧ (∀ d, s.jobAt a = some d →
            (d.state ≠ .requested ∨ timerDue d.wait = false → t = s)
            ∧ (d.state = .requested → timerDue d.wait = true →
                s.dispenseEnded t a d 0 .timeout ∧ s.joined t a (.answerEnded .timeout 0))))

/-- R31, R32, R34, R39 and R146: the draft checks in the order of Table 2-3, with RECORDS_FULL at a refusal for want of a
record claim alone; what an accepted draft takes and copies, and that it is captured at once where the tracker is STABLE,
ANSWER ACCEPTED placed first; the capture of the held gross at the reading that makes the tracker STABLE in CAPTURE; the
CANCEL item in CAPTURE and outside it. -/
def Obligations.DraftItemJudged : Prop :=
  ∀ (s : State) (a account species ctype count : Nat),
    ∀ cfg ch, s.weighAt a = some (cfg, ch) →
      (∀ code, (if ch.state ≠ .idle then some AnswerCode.busy
            else match s.account account with
              | none => some .notFound
              | some acct =>
                if acct.kind ≠ .boat then some .kind
                else match s.speciesOf species with
                  | none => some .species
                  | some _ => match s.crateTypes.find ctype with
                    | none => some .crateType
                    | some _ =>
                      if count = 0 ∨ 200 < count then some .count
                      else if acct.crateBalance ctype - count < -(acct.overdraft.getD 0 : Nat) then some .crates
                      else if 256 ≤ s.lotStore.lots.length + s.lotStore.reserved then some .full
                      else if 128 < s.queue.records.length + s.queue.owed + 1 then some .full
                      else none) = some code →
          s.joined (s.draftItem a account species ctype count) a (.answer code)
            ∧ (s.draftItem a account species ctype count).weighAt a = some (cfg, ch)
            ∧ (s.draftItem a account species ctype count).latchAt 5
                = (if code = .full ∧ s.lotStore.lots.length + s.lotStore.reserved < 256 then
                    (s.latchAt 5).occur s.clock (.station a) none else s.latchAt 5)
            ∧ (∀ n, n ≠ 5 → n ≠ 16 → (s.draftItem a account species ctype count).latchAt n = s.latchAt n)
            ∧ { s.draftItem a account species ctype count with stations := s.stations, latches := s.latches } = s)
      ∧ (∀ acct, s.account account = some acct → ∀ e, s.speciesOf species = some e →
          ∀ c, s.crateTypes.find ctype = some c → ch.state = .idle → acct.kind = .boat →
          1 ≤ count → count ≤ 200 →
          -((acct.overdraft.getD 0 : Nat) : Int) ≤ acct.crateBalance ctype - count →
          s.lotStore.lots.length + s.lotStore.reserved < 256 → s.queue.records.length + s.queue.owed < 128 →
          ∀ d : Draft, d = {
                boat := account, species := species, ring := e.ring, m := e.m, n := e.n, ctype := ctype, tare := c.tare,
                deposit := c.deposit, count := count, netStep := s.par.netStep,
                deadline := s.clock.later (s.par.captureTimeout * 1000), accepted := s.clock,
                timer := { elapsed := 0, limit := s.par.captureTimeout * 1000 } } →
            ∃ w : State, s.joined w a (.answer .accepted)
              ∧ w.weighAt a = some (cfg, { ch with state := .capture d })
              ∧ w.queue = { s.queue with owed := s.queue.owed + 1 }
              ∧ w.lotStore = { s.lotStore with reserved := s.lotStore.reserved + 1 }
              ∧ (∀ n, n ≠ 16 → w.latchAt n = s.latchAt n)
              ∧ (∀ b, b ≠ a → w.station b = s.station b)
              ∧ { w with stations := s.stations, latches := s.latches, queue := s.queue, lotStore := s.lotStore } = s
              ∧ (ch.tracker.state ≠ .stable → s.draftItem a account species ctype count = w)
              ∧ (∀ h, ch.tracker.state = .stable → ch.tracker.held = some h →
                  s.draftItem a account species ctype count = w.capture a cfg { ch with state := .capture d } d h.gross))
      ∧ (∀ d, ch.state = .capture d →
          (∀ p gross, ch.tracker.previous = some p → ch.tracker.state = .moving → (gross - p).natAbs ≤ cfg.band →
            ch.tracker.counter + 1 = cfg.stability →
            ∀ x : Channel, x = { ch with tracker := { state := .stable, counter := cfg.stability, previous := some gross,
                                                      held := some { gross := gross, at_ := s.clock } } } →
              ∃ w : State, w.station a = (s.station a).map (fun st => st.withDevice (.weigh cfg x))
                ∧ (∀ b, b ≠ a → w.station b = s.station b)
                ∧ { w with stations := s.stations } = s
                ∧ s.weighReading a gross false false = w.capture a cfg x d gross)
          ∧ (∀ gross motion overload, overload = true ∨ motion = true ∨ ch.tracker.previous = none
                ∨ ch.tracker.previous.any (fun p => decide (cfg.band < (gross - p).natAbs)) = true
                ∨ (ch.tracker.state = .moving ∧ ch.tracker.counter + 1 < cfg.stability) →
              (∀ b, b ≠ a → (s.weighReading a gross motion overload).station b = s.station b)
              ∧ { s.weighReading a gross motion overload with stations := s.stations } = s)
          ∧ (s.cancelItem a).weighAt a = some (cfg, { ch with state := .idle })
          ∧ (s.cancelItem a).lotStore = { s.lotStore with reserved := s.lotStore.reserved - 1 }
          ∧ (s.cancelItem a).queue = { s.queue with owed := s.queue.owed - 1 }
          ∧ (∀ r, (s.ring r).sameButTold ((s.cancelItem a).ring r))
          ∧ s.joined (s.cancelItem a) a (.result .cancelled)
          ∧ (∀ b, b ≠ a → (s.cancelItem a).station b = s.station b)
          ∧ { s.cancelItem a with stations := s.stations, lotStore := s.lotStore, queue := s.queue, rings := s.rings,
                                  latches := s.latches } = s)
      ∧ ((∀ d, ch.state ≠ .capture d) → s.joined (s.cancelItem a) a (.answer .noDraft)
          ∧ (s.cancelItem a).weighAt a = some (cfg, ch)
          ∧ (∀ b, b ≠ a → (s.cancelItem a).station b = s.station b)
          ∧ { s.cancelItem a with stations := s.stations, latches := s.latches } = s)

/-! ## The ice plant (chapter 5) -/

/-- R95, R99, R100, R101, R105 and R146: the request checks in the order of Table 5-3, with RECORDS_FULL at a refusal
for want of a record claim alone; the granted quantity, what an accepted request takes, holds and copies, its chute's
place in the latch list by request time, and the pre-emption of a running chute at that decision. The latch order, a
count of acceptances without a bound, is log 38. -/
def Obligations.IceRequestJudged : Prop :=
  ∀ (s : State) (a account ordered : Nat),
    ∀ cfg c, s.chuteAt a = some (cfg, c) →
      (∀ code, (if c.job ≠ none then some AnswerCode.busy
            else if account = 0 then some .notFound
            else match s.account account with
              | none => some .notFound
              | some acct =>
                if acct.state = .stopped then some .stopped
                else if ordered = 0 ∨ 10000 < ordered then some .count
                else if 16 ≤ s.bank.holds.length then some .full
                else if 128 < s.queue.records.length + s.queue.owed + 1 then some .full
                else if 0 < s.icePrice acct ∧ acct.available < s.icePrice acct then some .credit
                else none) = some code →
          s.joined (s.iceRequest a account ordered) a (.answer code)
            ∧ (s.iceRequest a account ordered).jobAt a = c.job
            ∧ (s.iceRequest a account ordered).latchAt 5
                = (if code = .full ∧ s.bank.holds.length < 16 then (s.latchAt 5).occur s.clock (.station a) none
                  else s.latchAt 5)
            ∧ (∀ n, n ≠ 5 → n ≠ 16 → (s.iceRequest a account ordered).latchAt n = s.latchAt n)
            ∧ { s.iceRequest a account ordered with stations := s.stations, latches := s.latches } = s)
      ∧ (∀ acct, s.account account = some acct → c.job = none → account ≠ 0 →
          acct.state = .opened → 1 ≤ ordered → ordered ≤ 10000 → s.bank.holds.length < 16 →
          s.queue.records.length + s.queue.owed < 128 →
          s.icePrice acct = 0 ∨ (s.icePrice acct : Int) ≤ acct.available →
          ∀ g, g = (if s.icePrice acct = 0 then ordered
                else min ordered (acct.available / (s.icePrice acct : Int)).toNat) →
          ∀ d, d = {
                    state := .requested, account := account, ordered := ordered, granted := g,
                    price := s.icePrice acct, hold := s.newHoldId, cls := cfg.cls, runLevel := cfg.runLevel,
                    requested := s.clock, latchOrder := s.ice.nextLatch, started := false, delivered := 0,
                    current := 0, suspendCause := none, pendingOutcome := none,
                    deadline := s.clock.later (s.par.iceWait * 1000),
                    wait := some { elapsed := 0, limit := s.par.iceWait * 1000 } } →
            1 ≤ g ∧ g ≤ ordered
            ∧ (s.iceRequest a account ordered).jobAt a = some d
            ∧ (s.iceRequest a account ordered).bank.holds = s.bank.holds
                ++ [{ id := s.newHoldId, account := account, amount := g * s.icePrice acct, owner := .chute a,
                      at_ := s.clock }]
            ∧ (s.iceRequest a account ordered).account account
                = some { acct with held := acct.held + g * s.icePrice acct }
            ∧ (∀ n, n ≠ account → (s.iceRequest a account ordered).account n = s.account n)
            ∧ (s.iceRequest a account ordered).queue = { s.queue with owed := s.queue.owed + 1 }
            ∧ a ∈ (s.iceRequest a account ordered).ice.latch
            ∧ (a ∉ s.ice.latch → s.latchedAt (s.iceRequest a account ordered) a d)
            ∧ (s.iceRequest a account ordered).ice.nextLatch = s.ice.nextLatch + 1
            ∧ (s.ice.screw ≠ .running a → s.joined (s.iceRequest a account ordered) a (.answerGranted g))
            ∧ (∀ b cfb x, s.chuteAt b = some (cfb, x) → ∀ e, x.job = some e → s.ice.screw = .running b →
                e.state = .running → s.poller.state = .polling →
                (max e.runLevel s.ice.effFloor < cfg.cls
                    ∨ s.ice.latch.any (fun y => (s.jobAt y).any (fun z => decide (max e.runLevel s.ice.effFloor < z.cls)))
                      = true →
                  (s.iceRequest a account ordered).ice.screw = .switching b
                    ∧ (s.iceRequest a account ordered).chuteAt b = some (cfb, { x with
                        job := some { e with state := .ending, pendingOutcome := some (.suspend .preempt) } })
                    ∧ s.joined (s.iceRequest a account ordered) b (.stop x.tag))
                ∧ (cfg.cls ≤ max e.runLevel s.ice.effFloor →
                    s.ice.latch.any (fun y => (s.jobAt y).any (fun z => decide (max e.runLevel s.ice.effFloor < z.cls)))
                      = false →
                  (s.iceRequest a account ordered).ice.screw = s.ice.screw
                    ∧ ∀ y, y ≠ a → (s.iceRequest a account ordered).station y = s.station y))
            ∧ (s.poller.state = .listen ∨ s.poller.state.isBroken = true
                  ∨ (∀ b e, s.ice.screw = .running b → s.jobAt b = some e → e.state ≠ .running) →
                (s.iceRequest a account ordered).ice.screw = s.ice.screw
                  ∧ ∀ y, y ≠ a → (s.iceRequest a account ordered).station y = s.station y)
            ∧ { s.iceRequest a account ordered with
                  stations := s.stations, latches := s.latches, queue := s.queue, bank := s.bank, ice := s.ice } = s)

/-- R104, R106 to R110, R94, R12 and Tables 5-5 and 5-6: what a run report and the stop button do at a chute in each
state: progress, a falling figure with STATION_FAULT, a lost START, the end of a run that ends the dispense, charged, or
suspends it at its place in the latch list. That a run whose START was lost ends with the current-run figure held, with
STATION_FAULT where that is above 0, is log 23. -/
def Obligations.RunEndChargesTheDispense : Prop :=
  (∀ (s : State) (a tag kg : Nat),
    ∀ cfg c, s.chuteAt a = some (cfg, c) →
      (c.job = none → ∀ x ∈ [RunStatus.none, RunStatus.active, RunStatus.ended], s.runReport a tag x kg = s)
      ∧ (∀ d, c.job = some d →
          (d.state = .requested ∨ d.state = .suspended →
            ∀ x ∈ [RunStatus.none, RunStatus.active, RunStatus.ended], s.runReport a tag x kg = s)
          ∧ (d.state = .running ∨ d.state = .ending → tag = c.tag →
              s.runReport a tag .none kg = s
              ∧ (d.current ≤ kg → (s.runReport a tag .active kg).chuteAt a
                    = some (cfg, { c with job := some { d with current := kg } })
                  ∧ { s.runReport a tag .active kg with stations := s.stations } = s
                  ∧ (∀ b, b ≠ a → (s.runReport a tag .active kg).station b = s.station b))
              ∧ (kg < d.current → { s.runReport a tag .active kg with latches := s.latches } = s
                  ∧ (s.runReport a tag .active kg).latchAt 14
                      = (s.latchAt 14).occur s.clock (.chute (s.chuteNo a)) none)
              ∧ (kg < d.current → (s.runReport a tag .ended kg).latchAt 14
                      = (s.latchAt 14).occur s.clock (.chute (s.chuteNo a)) none))
          ∧ (d.state = .running ∨ d.state = .ending → tag ≠ c.tag → s.waits a QuayCommand.isStart = true →
              ∀ x ∈ [RunStatus.none, RunStatus.active, RunStatus.ended], s.runReport a tag x kg = s)
          ∧ (d.state = .running → tag ≠ c.tag → s.waits a QuayCommand.isStart = false →
              ∀ x ∈ [RunStatus.none, RunStatus.active, RunStatus.ended],
                s.joined (s.runReport a tag x kg) a (.start c.tag (d.granted - d.delivered))
                  ∧ { s.runReport a tag x kg with stations := s.stations, latches := s.latches } = s
                  ∧ (s.runReport a tag x kg).jobAt a = some d)
          ∧ (∀ k, k = d.delivered + max kg d.current →
              (d.state = .running ∨ d.state = .ending → tag = c.tag →
                (d.state = .running ∨ d.pendingOutcome = some .end_ ∨ d.granted ≤ k →
                  s.dispenseEnded (s.runReport a tag .ended kg) a d k
                      (if d.granted ≤ k then .done else .stoppedByChute)
                    ∧ s.joined (s.runReport a tag .ended kg) a
                        (.answerEnded (if d.granted ≤ k then .done else .stoppedByChute) k))
                ∧ (∀ y, d.pendingOutcome = some (.suspend y) → d.state = .ending → k < d.granted →
                    a ∉ s.ice.latch → s.runSuspended (s.runReport a tag .ended kg) a cfg c d k y)))
          ∧ (∀ k, k = d.delivered + d.current →
              d.state = .ending → tag ≠ c.tag → s.waits a QuayCommand.isStart = false →
              ∀ x ∈ [RunStatus.none, RunStatus.active, RunStatus.ended],
                (0 < d.current → (s.runReport a tag x kg).latchAt 14
                    = (s.latchAt 14).occur s.clock (.chute (s.chuteNo a)) none)
                ∧ (d.current = 0 → (s.runReport a tag x kg).latchAt 14 = s.latchAt 14)
                ∧ (d.pendingOutcome = some .end_ ∨ d.granted ≤ k →
                  s.dispenseEnded (s.runReport a tag x kg) a d k (if d.granted ≤ k then .done else .stoppedByChute)
                    ∧ s.joined (s.runReport a tag x kg) a
                        (.answerEnded (if d.granted ≤ k then .done else .stoppedByChute) k))
                ∧ (∀ y, d.pendingOutcome = some (.suspend y) → k < d.granted → a ∉ s.ice.latch →
                    s.runSuspended (s.runReport a tag x kg) a cfg c d k y))))
  ∧ (∀ (s : State) (a : Nat),
    ∀ cfg c, s.chuteAt a = some (cfg, c) →
      (c.job = none → s.joined (s.stopButton a) a (.answer .noDispense)
          ∧ { s.stopButton a with stations := s.stations, latches := s.latches } = s ∧ (s.stopButton a).jobAt a = none)
      ∧ (∀ d, c.job = some d →
          (d.state = .requested → s.dispenseEnded (s.stopButton a) a d 0 .cancelled
              ∧ s.joined (s.stopButton a) a (.answerEnded .cancelled 0))
          ∧ (d.state = .running → (s.stopButton a).chuteAt a = some (cfg, { c with
                job := some { d with state := .ending, pendingOutcome := some .end_ } })
              ∧ s.joined (s.stopButton a) a (.stop c.tag)
              ∧ { s.stopButton a with stations := s.stations, latches := s.latches } = s)
          ∧ (d.state = .ending → (s.stopButton a).chuteAt a = some (cfg, { c with
                job := some { d with pendingOutcome := some .end_ } })
              ∧ (s.stopButton a).station a = (s.station a).map (fun x => x.withDevice (.chute cfg { c with
                job := some { d with pendingOutcome := some .end_ } }))
              ∧ { s.stopButton a with stations := s.stations } = s)
          ∧ (d.state = .suspended → s.dispenseEnded (s.stopButton a) a d d.delivered .stoppedByChute
              ∧ s.joined (s.stopButton a) a (.answerEnded .stoppedByChute d.delivered))))

/-- R103 and R104: with the screw IDLE the arbiter grants to the first chute among those of the highest class above the
effective floor, or cancels its dispense where it never started and its account is STOPPED, and then decides again over
the rest of the latch list; in LISTEN and BROKEN it grants nothing. A grant is a step of its own: log 19. -/
def Obligations.ScrewGrantRuns : Prop :=
  ∀ (a : Nat) (pre post : List Nat) (s : State),
    ∃ t, exec .screwGrant s = .next t
      ∧ (s.ice.screw ≠ .idle ∨ s.poller.state = .listen ∨ s.poller.state.isBroken = true → t = s)
      ∧ ((∀ b e, s.jobAt b = some e → e.cls ≤ s.ice.effFloor) → t = s)
      ∧ (∀ cfg c, s.chuteAt a = some (cfg, c) → ∀ d, c.job = some d →
          s.ice.screw = .idle → s.poller.state = .polling → s.ice.latch = pre ++ a :: post → s.ice.effFloor < d.cls →
          (∀ b ∈ pre, ∀ e, s.jobAt b = some e → e.cls < d.cls) →
          (∀ b ∈ post, ∀ e, s.jobAt b = some e → e.cls ≤ d.cls) →
            (d.started = true ∨ s.accountStopped d.account = false →
              t.chuteAt a = some (cfg, { c with tag := (if c.tag < 255 then c.tag + 1 else 1)
                                                job := some { d with state := .running, started := true, current := 0,
                                                                     wait := none, suspendCause := none } })
                ∧ t.ice = { s.ice with screw := .running a, latch := pre ++ post }
                ∧ s.joined t a (.start (if c.tag < 255 then c.tag + 1 else 1) (d.granted - d.delivered))
                ∧ { t with ice := s.ice, stations := s.stations, latches := s.latches } = s)
            ∧ (d.started = false → s.accountStopped d.account = true → post = [] → pre = [] →
                t.ice.latch = [] ∧ t.ice.screw = .idle ∧ s.dispenseEnded t a d 0 .stopped
                  ∧ s.joined t a (.answerEnded .stopped 0))
            ∧ (d.started = false → s.accountStopped d.account = true →
                ∃ w, s.dispenseEnded w a d 0 .stopped ∧ s.joined w a (.answerEnded .stopped 0)
                  ∧ w.ice = { s.ice with latch := pre ++ post } ∧ exec .screwGrant w = .next t))

/-- R113, R114 and R105: a bin reading sets level, EMPTY flag and LOW by the marks; an empty bin takes the screw to DRY
and stops a running chute; a bin no longer empty takes an unused screw from DRY to IDLE, and the screw of a chute in
ENDING to SWITCHING or RUNNING by its pending outcome; a changed floor makes the arbiter test pre-emption. The reserve
level is the one in use at the reading: log 21. That a reading with EMPTY suspends a running chute with cause DRY, also
where it ends LOW and so lowers the floor, and never pre-empts it, is the model's choice of an order: log 33. -/
def Obligations.BinReadingTaken : Prop :=
  ∀ (s : State) (a raw : Nat) (empty : Bool),
    (s.binReading a raw empty).ice.level = some (min 100 raw)
      ∧ (s.binReading a raw empty).ice.emptyFlag = some empty
      ∧ (s.binReading a raw empty).ice.low = (if min 100 raw < s.par.lowMark then true
          else if s.par.resumeMark ≤ min 100 raw then false else s.ice.low)
      ∧ (min 100 raw < s.par.lowMark → s.ice.low = false →
          (s.binReading a raw empty).latchAt 11 = (s.latchAt 11).occur s.clock (.station a) none)
      ∧ (s.par.lowMark ≤ min 100 raw ∨ s.ice.low = true → (s.binReading a raw empty).latchAt 11 = s.latchAt 11)
      ∧ (∀ n, n ≠ 7 → n ≠ 11 → n ≠ 16 → (s.binReading a raw empty).latchAt n = s.latchAt n)
      ∧ (empty = true ∨ raw = 0 → (s.binReading a raw empty).ice.screw = .dry
          ∧ (s.ice.screw ≠ .dry →
              (s.binReading a raw empty).latchAt 7 = (s.latchAt 7).occur s.clock (.station a) none)
          ∧ (∀ b cfg c, s.chuteAt b = some (cfg, c) → ∀ d, c.job = some d → s.ice.screw = .running b →
              d.state = .running →
              (s.binReading a raw empty).jobAt b
                  = some { d with state := .ending, pendingOutcome := some (.suspend .dry) }
                ∧ s.joined (s.binReading a raw empty) b (.stop c.tag))
          ∧ ((∀ b d, s.ice.screw = .running b → s.jobAt b = some d → d.state ≠ .running) →
              (s.binReading a raw empty).stations = s.stations))
      ∧ (empty = false → raw ≠ 0 → (s.binReading a raw empty).latchAt 7 = s.latchAt 7)
      ∧ (empty = false → raw ≠ 0 → s.ice.screw = .dry → Table.Sorted s.stations →
          (s.binReading a raw empty).stations = s.stations
          ∧ ((∀ b d, s.jobAt b = some d → d.state ≠ .ending) → (s.binReading a raw empty).ice.screw = .idle)
          ∧ (∀ b d, s.jobAt b = some d → d.state = .ending →
              (∀ x e, s.jobAt x = some e → e.state = .ending → x = b) →
              (s.binReading a raw empty).ice.screw
                = (if d.pendingOutcome = some .end_ then .running b else .switching b)))
      ∧ (empty = false → raw ≠ 0 → s.ice.screw ≠ .dry →
          (∀ b d, s.ice.screw = .running b → s.jobAt b = some d → d.state ≠ .running) →
          (s.binReading a raw empty).ice.screw = s.ice.screw ∧ (s.binReading a raw empty).stations = s.stations)
      ∧ (∀ b cfg c, s.chuteAt b = some (cfg, c) → ∀ d, c.job = some d → s.ice.screw = .running b → d.state = .running →
          empty = false → raw ≠ 0 →
          ∀ above, above = s.ice.latch.any (fun x => (s.jobAt x).any (fun e =>
              decide (max d.runLevel (s.binReading a raw empty).ice.effFloor < e.cls))) →
            (s.poller.state = .polling → (s.binReading a raw empty).ice.effFloor ≠ s.ice.effFloor → above = true →
              (s.binReading a raw empty).ice.screw = .switching b
                ∧ (s.binReading a raw empty).chuteAt b = some (cfg, { c with
                    job := some { d with state := .ending, pendingOutcome := some (.suspend .preempt) } })
                ∧ s.joined (s.binReading a raw empty) b (.stop c.tag))
            ∧ (s.poller.state = .listen ∨ s.poller.state.isBroken = true
                  ∨ (s.binReading a raw empty).ice.effFloor = s.ice.effFloor ∨ above = false →
              (s.binReading a raw empty).ice.screw = s.ice.screw
                ∧ (s.binReading a raw empty).stations = s.stations))
      ∧ (s.binReading a raw empty).ice.officeFloor = s.ice.officeFloor
      ∧ (s.binReading a raw empty).ice.effFloor
          = (if (s.binReading a raw empty).ice.low then max s.ice.officeFloor s.par.reserveLevel
             else s.ice.officeFloor)
      ∧ { s.binReading a raw empty with ice := s.ice, stations := s.stations, latches := s.latches } = s

/-! ## The crate pool (chapter 6) -/

/-- R127 to R130, R133, R134 and R146: the checks of an OPEN item in the order of Table 6-5, with RECORDS_FULL at a
refusal FULL alone; the session an accepted one opens, what a count report does to an open session, the closes FAULT
of a falling count and of a sensor fault, the close KEYPAD, and what is placed again for a lost OPENED or CLOSED. That
a reply in IDLE with the sensor fault flag may also have CLOSED placed again, and that its item is judged, is log 34.
-/
def Obligations.GateSessionOpensAndCounts : Prop :=
  ∀ (s : State) (a account ctype keyed tag count : Nat),
    ∀ dir g, s.gateAt a = some (dir, g) →
      (∀ code, (if g.session ≠ none then some AnswerCode.busy
            else if account = 0 then some .notFound
            else match s.account account with
              | none => some .notFound
              | some acct =>
                if s.crateTypes.find ctype = none then some .crateType
                else if (keyed ≠ 1 ∧ keyed ≠ 2) ∨ (keyed = 1 ∧ dir = .out) ∨ (keyed = 2 ∧ dir = .into) then
                  some .direction
                else if keyed = 2 ∧ acct.state = .stopped then some .stopped
                else if 128 < s.queue.records.length + s.queue.owed + 1 then some .full
                else none) = some code →
          s.joined (s.gateOpen a account ctype keyed) a (.answer code)
            ∧ (s.gateOpen a account ctype keyed).gateAt a = some (dir, g)
            ∧ (s.gateOpen a account ctype keyed).latchAt 5
                = (if code = .full then (s.latchAt 5).occur s.clock (.station a) none else s.latchAt 5)
            ∧ (∀ n, n ≠ 5 → n ≠ 16 → (s.gateOpen a account ctype keyed).latchAt n = s.latchAt n)
            ∧ { s.gateOpen a account ctype keyed with stations := s.stations, latches := s.latches } = s)
      ∧ (∀ acct, s.account account = some acct → account ≠ 0 → g.session = none → s.crateTypes.find ctype ≠ none →
          (keyed = 1 ∧ dir ≠ .out) ∨ (keyed = 2 ∧ dir ≠ .into ∧ acct.state = .opened) →
          s.queue.records.length + s.queue.owed < 128 →
            (s.gateOpen a account ctype keyed).gateAt a = some (dir, { g with
                tag := (if g.tag < 255 then g.tag + 1 else 1)
                session := some { account := account, ctype := ctype, dir := (if keyed = 1 then .into else .out),
                                  count := 0, clamped := false, opened := s.clock,
                                  deadline := s.clock.later (s.par.gateIdle * 1000),
                                  idle := { elapsed := 0, limit := s.par.gateIdle * 1000 } } })
              ∧ (s.gateOpen a account ctype keyed).queue = { s.queue with owed := s.queue.owed + 1 }
              ∧ s.joined (s.gateOpen a account ctype keyed) a
                  (.answerOpened (if g.tag < 255 then g.tag + 1 else 1))
              ∧ { s.gateOpen a account ctype keyed with
                    stations := s.stations, latches := s.latches, queue := s.queue } = s)
      ∧ (∀ x, g.session = some x → ∀ shut, g.tag = tag → x.count ≤ min 9999 count →
          (s.gateReport a tag shut count false).gateAt a = some (dir,
              { g with report := some { tag := tag, barrierOpen := shut, count := count }
                       session := some (if x.count < min 9999 count then
                           { x with count := min 9999 count, clamped := x.clamped || decide (9999 < count),
                                    idle := { elapsed := 0, limit := s.par.gateIdle * 1000 },
                                    deadline := s.clock.later (s.par.gateIdle * 1000) }
                         else { x with clamped := x.clamped || decide (9999 < count) }) })
            ∧ { s.gateReport a tag shut count false with stations := s.stations, latches := s.latches } = s
            ∧ (9999 < count → x.clamped = false →
                (s.gateReport a tag shut count false).latchAt 13 = (s.latchAt 13).occur s.clock (.station a) none)
            ∧ (count ≤ 9999 → s.latches = (s.gateReport a tag shut count false).latches))
      ∧ (∀ x, g.session = some x → ∀ shut,
          g.tag = tag → min 9999 count < x.count → count ≤ 9999 →
            State.sessionClosed s (s.gateReport a tag shut count false) a dir
                { g with report := some { tag := tag, barrierOpen := shut, count := count } } x .fault
              ∧ (s.gateReport a tag shut count false).latchAt 13 = (s.latchAt 13).occur s.clock (.station a) none
              ∧ s.joined (s.gateReport a tag shut count false) a (.closed g.tag x.count .fault))
      ∧ (∀ x, g.session = some x → ∀ shut,
          State.sessionClosed s (s.gateReport a tag shut count true) a dir
              { g with report := some { tag := tag, barrierOpen := shut, count := count } } x .fault
            ∧ (s.gateReport a tag shut count true).latchAt 13 = (s.latchAt 13).occur s.clock (.station a) none
            ∧ s.joined (s.gateReport a tag shut count true) a (.closed g.tag x.count .fault))
      ∧ (∀ x, g.session = some x → s.sessionClosed (s.gateCloseItem a) a dir g x .keypad
          ∧ s.joined (s.gateCloseItem a) a (.closed g.tag x.count .keypad))
      ∧ (g.session = none → s.joined (s.gateCloseItem a) a (.answer .noSession)
          ∧ (s.gateCloseItem a).gateAt a = some (dir, g)
          ∧ { s.gateCloseItem a with stations := s.stations, latches := s.latches } = s)
      ∧ (∀ x, g.session = some x → ∀ shut, tag ≠ g.tag →
          (s.gateReport a tag shut count false).gateAt a
              = some (dir, { g with report := some { tag := tag, barrierOpen := shut, count := count } })
            ∧ { s.gateReport a tag shut count false with stations := s.stations, latches := s.latches } = s
            ∧ (s.waits a QuayCommand.isOpened = false →
                s.joined (s.gateReport a tag shut count false) a (.answerOpened g.tag)))
      ∧ (g.session = none → ∀ shut sensor,
          (s.gateReport a tag shut count sensor).gateAt a
              = some (dir, { g with report := some { tag := tag, barrierOpen := shut, count := count } })
            ∧ { s.gateReport a tag shut count sensor with stations := s.stations, latches := s.latches } = s
            ∧ (sensor = true →
                (s.gateReport a tag shut count sensor).latchAt 13 = (s.latchAt 13).occur s.clock (.station a) none)
            ∧ (∀ y, g.lastClose = some y → tag = g.tag → tag ≠ 0 → shut = true →
                s.waits a QuayCommand.isClosed = false →
                s.joined (s.gateReport a tag shut count sensor) a (.closed g.tag y.count y.cause)))

/-- R131, R133, R120 and Table 6-6: the idle timer's expiry closes the session: crates, store, shortfall and deposit
posted by its direction, the CRATE record with the session's claim, CLOSED. Not in LISTEN (R135). -/
def Obligations.GateIdleCloses : Prop :=
  ∀ (a : Nat) (s : State),
    ∃ t, exec (.gateIdleTimeout a) s = .next t
      ∧ (s.gateAt a = none → t = s)
      ∧ (∀ dir g, s.gateAt a = some (dir, g) →
          (g.session = none → t = s)
          ∧ (∀ x, g.session = some x →
              (s.poller.state = .listen ∨ x.idle.elapsed < x.idle.limit → t = s)
              ∧ (s.poller.state ≠ .listen → x.idle.limit ≤ x.idle.elapsed →
                  s.sessionClosed t a dir g x .idle ∧ s.joined t a (.closed g.tag x.count .idle))))

/-! ## The rings (chapters 3 and 9) -/

/-- R59, R168, R169, R201 and Table 3-5: a STOP frame is taken into a slot at its arrival time, or answered at once.
That the arrival time is the hall time at which FLOOR_STOP takes the frame, and that the command passes an empty
stage, is the model's choice: log 3. A STOP of another length than 3 is discarded with FLOOR_ERRORS, and so is each
one, whatever its destination, among the frames behind that the routing discards in the same step, which is log 28. A
resolution that stands between its slots at the ring named ends first: logs 5 and 17. A frame placed on an idle line
goes at once: log 29. -/
def Obligations.FloorStopTaken : Prop :=
  ∀ (f : Frame) (s : State), f.kind = 0x11 → f.dst = 0 →
    s.floor.rx.head? = some f ∨ (s.floor.rx = [] ∧ s.floorLine.cond ≠ .silent) →
    ∃ t, exec (.floorStop f) s = .next t
      ∧ t.floor.rx = (s.floor.rx.drop 1).dropWhile (fun g => decide (¬ (g.kind = 0x11 ∧ g.dst = 0)))
      ∧ (∀ r, RingNo.ofNum (fieldAt f.payload 1 1) = some r → f.payload.length = 3 → (s.ring r).midway = true →
          1 ≤ fieldAt f.payload 0 1 → fieldAt f.payload 0 1 ≤ 64 →
          exec (.floorStop f) (s.finishResolution r) = .next t)
      ∧ (f.payload.length ≠ 3 →
          t.latchAt 16 = (s.latchAt 16).floorErrors s.clock (1 + misfitStops (s.floor.rx.drop 1))
          ∧ (∀ n, n ≠ 16 → t.latchAt n = s.latchAt n)
          ∧ { t with floor := s.floor, floorLine := s.floorLine, latches := s.latches } = s)
      ∧ (f.payload.length = 3 →
          fieldAt f.payload 0 1 = 0 ∨ 64 < fieldAt f.payload 0 1
            ∨ (RingNo.ofNum (fieldAt f.payload 1 1)).any (fun r => (s.ring r).midway) = false →
          { t with floor := s.floor, floorLine := s.floorLine, rings := s.rings, boards := s.boards,
                   latches := s.latches } = s
          ∧ (∀ n, n ≠ 16 → t.latchAt n = s.latchAt n)
          ∧ (∀ r, RingNo.ofNum (fieldAt f.payload 1 1) = some r → ∀ o, (s.ring r).offer = some o →
              1 ≤ fieldAt f.payload 0 1 → fieldAt f.payload 0 1 ≤ 64 →
              ((s.ring r).state = .descending →
                Ring.sameButMarks { s.ring r with
                  state := .resolving
                  offer := some { o with slot1 := some { keypad := fieldAt f.payload 0 1,
                                                         wanted := fieldAt f.payload 2 1, at_ := s.clock } }
                  timer := some { elapsed := 0, limit := s.par.resolveWindow } } (t.ring r)
                ∧ (∀ q, q ≠ r → (s.ring q).sameButMarks (t.ring q))
                ∧ t.latchAt 16 = (s.latchAt 16).floorErrors s.clock (misfitStops (s.floor.rx.drop 1)))
              ∧ ((s.ring r).state = .resolving → o.slot2 = none →
                o.slot1.any (fun z => z.keypad == fieldAt f.payload 0 1) = false →
                Ring.sameButMarks { s.ring r with
                  offer := some { o with slot2 := some { keypad := fieldAt f.payload 0 1,
                                                         wanted := fieldAt f.payload 2 1, at_ := s.clock } } }
                  (t.ring r)
                ∧ (∀ q, q ≠ r → (s.ring q).sameButMarks (t.ring q))
                ∧ t.latchAt 16 = (s.latchAt 16).floorErrors s.clock (misfitStops (s.floor.rx.drop 1))))
          ∧ (∀ x, (if fieldAt f.payload 0 1 = 0 ∨ 64 < fieldAt f.payload 0 1 then
                  some (AnswerCode.unknown, (none : Option Nat))
                else match RingNo.ofNum (fieldAt f.payload 1 1) with
                  | none => some (.notPermitted, none)
                  | some r => match (s.ring r).state, (s.ring r).offer with
                    | .descending, some _ => none
                    | .resolving, some o =>
                      if o.slot1.any (fun z => z.keypad == fieldAt f.payload 0 1)
                          || o.slot2.any (fun z => z.keypad == fieldAt f.payload 0 1) then
                        some (.duplicate, some o.lot)
                      else if o.slot2 = none then none
                      else some (.late, some o.lot)
                    | .leadIn, o => some (.early, o.map (fun y => y.lot))
                    | .held, o => some (.held, o.map (fun y => y.lot))
                    | _, o => some (.closed, o.map (fun y => y.lot))) = some x →
              (∀ q, (s.ring q).sameButMarks (t.ring q))
              ∧ (s.boards.answers.length < 16 → s.floorLine.cond ≠ .up ∨ s.floor.stage ≠ none →
                  t.boards.answers = s.boards.answers
                    ++ [{ keypad := fieldAt f.payload 0 1, ring := fieldAt f.payload 1 1, code := x.1, lot := x.2,
                          crates := none, price := none, arrival := none }]
                  ∧ t.latchAt 16 = (s.latchAt 16).floorErrors s.clock (misfitStops (s.floor.rx.drop 1)))
              ∧ (16 ≤ s.boards.answers.length → s.floorLine.cond ≠ .up ∨ s.floor.stage ≠ none →
                  t.boards.answers = s.boards.answers
                    ∧ t.latchAt 16 = ((s.latchAt 16).occur s.clock
                        (if 1 ≤ fieldAt f.payload 1 1 ∧ fieldAt f.payload 1 1 ≤ 4 then .ring (fieldAt f.payload 1 1)
                         else .none) (some .answerDropped)).floorErrors s.clock (misfitStops (s.floor.rx.drop 1)))
              ∧ (s.boards.answers = [] → s.floorLine.cond = .up → s.floor.stage = none → s.floor.onLine ≠ none →
                  t.floor.stage = some (KeypadAnswer.frame
                    { keypad := fieldAt f.payload 0 1, ring := fieldAt f.payload 1 1, code := x.1, lot := x.2,
                      crates := none, price := none, arrival := none }))))

/-- R51 to R55 and R69: one attempt of a WAITING ring to start an offer: held by the floor, stalled PROFILE, stalled
CLAIMS, or begun with the snapshot of Table 3-4. An offer start is a step of its own: log 19.
That the floor line is tested before the lot's entries and the claims is the model's choice: log 35. -/
def Obligations.OfferStarts : Prop :=
  ∀ (r : RingNo) (s : State),
    ∃ t, exec (.offerStart r) s = .next t
      ∧ ((s.ring r).state ≠ .waiting ∨ (s.ring r).queue = [] ∨ (s.ring r).heldOffice = true
          ∨ (s.ring r).heldFloor = true ∨ ((s.ring r).stall ≠ .none ∧ (s.ring r).told = false) → t = s)
      ∧ (∀ n, (s.ring r).queue.head? = some n → ∀ l, s.lot n = some l →
          (s.ring r).state = .waiting → (s.ring r).heldOffice = false → (s.ring r).heldFloor = false →
          (s.ring r).stall = .none ∨ (s.ring r).told = true →
          (∀ q, q ≠ r → (s.ring q).sameButMarks (t.ring q))
          ∧ (s.floorLine.cond ≠ .up →
              t.ring r = { s.ring r with state := .held, heldOffice := false, heldFloor := true, setSeen := true,
                                         stall := .none, told := false, timer := none }
                ∧ { t with rings := s.rings, boards := s.boards } = s)
          ∧ (s.floorLine.cond = .up → s.profileFor l = none →
              Ring.sameButMarks { s.ring r with stall := .profile, told := false } (t.ring r)
                ∧ ((s.ring r).stall ≠ .profile →
                    t.latchAt 10 = (s.latchAt 10).occur s.clock (.ring r.num) none)
                ∧ { t with rings := s.rings, boards := s.boards, floor := s.floor, latches := s.latches } = s)
          ∧ (∀ p, s.profileFor l = some p → s.floorLine.cond = .up →
              (128 < s.queue.records.length + s.queue.owed + 2 →
                Ring.sameButMarks { s.ring r with stall := .claims, told := false } (t.ring r)
                  ∧ ((s.ring r).stall ≠ .claims →
                      t.latchAt 10 = (s.latchAt 10).occur s.clock (.ring r.num) none
                        ∧ t.latchAt 5 = (s.latchAt 5).occur s.clock (.ring r.num) none)
                  ∧ { t with rings := s.rings, boards := s.boards, floor := s.floor, latches := s.latches } = s)
              ∧ (s.queue.records.length + s.queue.owed + 2 ≤ 128 →
                  t.queue = { s.queue with owed := s.queue.owed + 2 }
                    ∧ t.lot n = some { l with state := .onClock, offers := l.offers + 1 }
                    ∧ (∀ m, m ≠ n → t.lot m = s.lot m)
                    ∧ Ring.sameButMarks { s.ring r with
                        state := (if p.leadIn = 0 then .descending else .leadIn)
                        queue := (s.ring r).queue.drop 1
                        offer := some { lot := n, profile := p, effFloor := max p.floor (l.reserve.getD 0),
                                        startPrice := max p.start (l.reserve.getD 0),
                                        price := max p.start (l.reserve.getD 0), slot1 := none, slot2 := none,
                                        lastSale := none, midway := none }
                        claims := 2
                        stall := .none
                        told := false
                        timer := some { elapsed := 0, limit := if p.leadIn = 0 then p.interval else p.leadIn } }
                        (t.ring r)
                    ∧ { t with rings := s.rings, boards := s.boards, floor := s.floor, queue := s.queue,
                               lotStore := s.lotStore } = s)))

/-- R55 and R145: in LEAD_IN the missing claims are granted whole or not at all, and end the ring's stall; the pause's
expiry begins the descent, or the stall CLAIMS of a ring with fewer than 2 claims. -/
def Obligations.LeadInEnds : Prop :=
  ∀ (r : RingNo) (s : State),
    (∃ t, exec (.claimTopUp r) s = .next t
      ∧ ((s.ring r).state ≠ .leadIn ∨ 2 ≤ (s.ring r).claims → t = s)
      ∧ ((s.ring r).state = .leadIn → (s.ring r).claims < 2 →
          (∀ q, q ≠ r → (s.ring q).sameButMarks (t.ring q))
          ∧ (128 < s.queue.records.length + s.queue.owed + (2 - (s.ring r).claims) →
              (s.ring r).sameButMarks (t.ring r)
                ∧ { t with rings := s.rings, boards := s.boards, floor := s.floor } = s)
          ∧ (s.queue.records.length + s.queue.owed + (2 - (s.ring r).claims) ≤ 128 →
              t.queue = { s.queue with owed := s.queue.owed + (2 - (s.ring r).claims) }
                ∧ { t with rings := s.rings, boards := s.boards, floor := s.floor, queue := s.queue } = s
                ∧ ((s.ring r).stall ≠ .claims → Ring.sameButMarks { s.ring r with claims := 2 } (t.ring r))
                ∧ ((s.ring r).stall = .claims → Ring.sameButMarks { s.ring r with
                    state := .descending
                    claims := 2
                    stall := .none
                    told := false
                    timer := (s.ring r).offer.map (fun o => { elapsed := 0, limit := o.profile.interval }) }
                    (t.ring r)))))
    ∧ (∃ t, exec (.pauseExpiry r) s = .next t
        ∧ ((s.ring r).state ≠ .leadIn ∨ timerDue (s.ring r).timer = false → t = s)
        ∧ ((s.ring r).state = .leadIn → timerDue (s.ring r).timer = true →
            (∀ q, q ≠ r → (s.ring q).sameButMarks (t.ring q))
            ∧ { t with rings := s.rings, boards := s.boards, floor := s.floor, latches := s.latches } = s
            ∧ ((s.ring r).claims = 2 → t.latches = s.latches ∧ Ring.sameButMarks { s.ring r with
                state := .descending
                stall := .none
                told := false
                timer := (s.ring r).offer.map (fun o => { elapsed := 0, limit := o.profile.interval }) } (t.ring r))
            ∧ ((s.ring r).claims ≠ 2 →
                Ring.sameButMarks { s.ring r with stall := .claims, told := false, timer := none } (t.ring r)
                  ∧ t.latchAt 10 = (s.latchAt 10).occur s.clock (.ring r.num) none
                  ∧ t.latchAt 5 = (s.latchAt 5).occur s.clock (.ring r.num) none)))

/-- R56 to R58: at a wrap of the step timer the price falls, never below the effective floor; a wrap at the effective
floor ends the offer: requeued within the re-offer limit, withdrawn to the boat past it. That ticks counted past the
wrap stay counted is the model's choice: log 9. -/
def Obligations.StepWrapFalls : Prop :=
  ∀ (r : RingNo) (s : State),
    ∃ t, exec (.stepWrap r) s = .next t
      ∧ ((s.ring r).state ≠ .descending → t = s)
      ∧ (∀ o, (s.ring r).offer = some o → ∀ x, (s.ring r).timer = some x → (s.ring r).state = .descending →
          (x.elapsed < x.limit → t = s)
          ∧ (x.limit ≤ x.elapsed → o.price ≠ o.effFloor →
              Ring.sameButMarks { s.ring r with
                offer := some { o with price := max (o.price - o.profile.step) o.effFloor }
                timer := some { elapsed := x.elapsed - x.limit, limit := o.profile.interval } } (t.ring r)
              ∧ (∀ q, q ≠ r → (s.ring q).sameButMarks (t.ring q))
              ∧ { t with rings := s.rings, boards := s.boards, floor := s.floor } = s)
          ∧ (∀ l, s.lot o.lot = some l → x.limit ≤ x.elapsed → o.price = o.effFloor → l.offers ≤ s.par.reofferLimit →
              Ring.sameButMarks { s.ring r with state := .waiting, offer := none, claims := 0, stall := .none,
                                                told := false, timer := none,
                                                queue := (s.ring r).queue ++ [o.lot] } (t.ring r)
              ∧ (∀ q, q ≠ r → (s.ring q).sameButBoth (t.ring q))
              ∧ t.lot o.lot = some { l with state := .queued } ∧ (∀ m, m ≠ o.lot → t.lot m = s.lot m)
              ∧ t.queue = { s.queue with owed := s.queue.owed - (s.ring r).claims }
              ∧ { t with rings := s.rings, boards := s.boards, floor := s.floor, queue := s.queue,
                         lotStore := s.lotStore } = s)
          ∧ (∀ l, s.lot o.lot = some l → x.limit ≤ x.elapsed → o.price = o.effFloor → s.par.reofferLimit < l.offers →
              Ring.sameButMarks { s.ring r with state := .waiting, offer := none, claims := 0, stall := .none,
                                                told := false, timer := none } (t.ring r)
              ∧ (∀ q, q ≠ r → (s.ring q).sameButBoth (t.ring q))
              ∧ t.lotStore = { s.lotStore with lots := s.lotStore.lots.erase o.lot }
              ∧ s.wrote t (.withdrawn o.lot l.boat l.remaining l.netRemaining .runOut)
              ∧ t.queue.owed = s.queue.owed - 1 - ((s.ring r).claims - 1)
              ∧ { t with rings := s.rings, boards := s.boards, floor := s.floor, queue := s.queue,
                         lotStore := s.lotStore, bank := s.bank, crateTypes := s.crateTypes, latches := s.latches,
                         choices := s.choices } = s
              ∧ (∀ boat, s.account l.boat = some boat → ∀ hall, s.account 0 = some hall → l.boat ≠ 0 →
                  Table.Sorted boat.crates → inBounds (boat.crateBalance l.ctype + l.remaining) →
                  inBounds (boat.balance - (s.depositOf l.ctype * l.remaining : Nat)) →
                  inBounds (hall.balance + (s.depositOf l.ctype * l.remaining : Nat)) →
                  (∃ b, t.account l.boat = some b
                    ∧ b.balance = boat.balance - (s.depositOf l.ctype * l.remaining : Nat)
                    ∧ b.crateBalance l.ctype = boat.crateBalance l.ctype + l.remaining
                    ∧ b.totals = boat.totals ∧ b.held = boat.held
                    ∧ (boat.state = .opened → (b.state = .stopped ↔ boat.isClient = true ∧ b.available < 0)))
                  ∧ (∃ h, t.account 0 = some h
                    ∧ h.balance = hall.balance + (s.depositOf l.ctype * l.remaining : Nat)))))

/-- R61, R64, R65, R67, R69, R85 and R93: a resolution judges slot 1 and then slot 2, which is answered LATE where slot 1
took the last crates, and empties the slots; with no crates left the lot leaves and the ring keeps no claim; with crates
left the price rises after a sale, never past the start price, and the ring goes to LEAD_IN, or to HELD by a pending
HOLD or a floor line that is down; on entering LEAD_IN its claims are topped up to 2 where the queue has room (R55), and
a resume pause of 0 is over at once. Whether it goes on to slot 2 at once or lets other requests between is free: logs 5,
17 and 24. -/
def Obligations.ResolutionEnds : Prop :=
  ∀ (r : RingNo) (s : State),
    ∃ t, exec (.resolveExpiry r) s = .next t
      ∧ ((s.ring r).state ≠ .resolving ∨ timerDue (s.ring r).timer = false → t = s)
      ∧ (∀ o, (s.ring r).offer = some o → (s.ring r).state = .resolving → timerDue (s.ring r).timer = true →
          Table.Sorted s.lotStore.lots →
          (∀ q, q ≠ r → (s.ring q).sameButBoth (t.ring q))
          ∧ { t with rings := s.rings, boards := s.boards, floor := s.floor, queue := s.queue, lotStore := s.lotStore,
                     bank := s.bank, crateTypes := s.crateTypes, latches := s.latches, choices := s.choices } = s
          ∧ (∀ u : State, u = (if o.midway ≠ none then s else match o.slot1 with
                | none => s
                | some z => s.resolveSlot r o z) →
              (o.midway ≠ none ∨ o.slot2 = none ∨ u.cratesLeft o.lot = 0 → (t.ring r).midway = false)
              ∧ ((t.ring r).midway = true →
                  Ring.sameButMarks { u.ring r with offer := (u.ring r).offer.map (fun p => { p with
                    slot1 := none, midway := some (decide (u.cratesLeft o.lot < s.cratesLeft o.lot)) }) } (t.ring r)
                  ∧ { t with rings := u.rings, boards := u.boards, floor := u.floor, choices := u.choices } = u
                  ∧ (s.floorLine.cond ≠ .up ∨ s.floor.stage ≠ none → t.boards.answers = u.boards.answers))
              ∧ (∀ v : State, v = { u with choices := if o.midway = none ∧ o.slot2 ≠ none ∧ 0 < u.cratesLeft o.lot
                    then u.choices + 1 else u.choices } →
                ∀ w : State, w = (match o.slot2 with
                    | none => v
                    | some z =>
                      if u.cratesLeft o.lot = 0 then v.giveAnswer
                        { keypad := z.keypad, ring := r.num, code := .late, lot := some o.lot, crates := none,
                          price := none, arrival := some z.at_ }
                      else v.resolveSlot r o z) →
                  (t.ring r).midway = false →
                    t.bank = w.bank ∧ t.crateTypes = w.crateTypes ∧ t.queue.records = w.queue.records
                    ∧ t.lotStore = (if w.cratesLeft o.lot = 0
                        then { w.lotStore with lots := w.lotStore.lots.erase o.lot } else w.lotStore)
                    ∧ (s.floorLine.cond ≠ .up ∨ s.floor.stage ≠ none → t.boards.answers = w.boards.answers)
                    ∧ (0 < w.cratesLeft o.lot →
                        ((s.ring r).holdPending = true ∨ s.floorLine.cond ≠ .up →
                          (t.ring r).claims = (w.ring r).claims ∧ t.queue = w.queue)
                        ∧ ((s.ring r).holdPending = false → s.floorLine.cond = .up → w.toppedUp t r
                          ∧ (o.profile.resumePause = 0 → (t.ring r).claims ≠ 2 →
                              (t.ring r).state = .leadIn ∧ (t.ring r).stall = .claims ∧ (t.ring r).timer = none
                              ∧ t.latchAt 10 = (w.latchAt 10).occur s.clock (.ring r.num) none
                              ∧ t.latchAt 5 = (w.latchAt 5).occur s.clock (.ring r.num) none)))))
          ∧ (∀ p, (t.ring r).offer = some p → p.slot1 = none ∧ p.lot = o.lot
              ∧ ((t.ring r).midway = false → p.slot2 = none ∧ p.midway = none))
          ∧ (t.lot o.lot = none → (t.ring r).midway = false ∧ (t.ring r).claims = 0
              ∧ (0 < o.profile.afterSale → (t.ring r).state = .afterSale
                  ∧ (t.ring r).timer = some { elapsed := 0, limit := o.profile.afterSale }
                  ∧ (t.ring r).holdPending = (s.ring r).holdPending)
              ∧ (o.profile.afterSale = 0 → (t.ring r).offer = none ∧ (t.ring r).holdPending = false
                  ∧ (t.ring r).state = (if (s.ring r).holdPending then .held else .waiting)))
          ∧ (∀ l', t.lot o.lot = some l' → ∀ l, s.lot o.lot = some l → (t.ring r).midway = false →
              (∃ p, (t.ring r).offer = some p
                ∧ p.price = (if o.midway = some true ∨ l'.remaining < l.remaining
                    then min (o.price + o.profile.restartRaise * o.profile.step) o.startPrice else o.price)
                ∧ p.effFloor = o.effFloor ∧ p.startPrice = o.startPrice ∧ p.profile = o.profile)
              ∧ 1 ≤ l'.remaining ∧ l'.remaining ≤ l.remaining
              ∧ ((s.ring r).holdPending = true ∨ s.floorLine.cond ≠ .up →
                  (t.ring r).state = .held ∧ (t.ring r).heldOffice = (s.ring r).holdPending
                    ∧ ((t.ring r).heldFloor = true ↔ s.floorLine.cond ≠ .up) ∧ (t.ring r).holdPending = false)
              ∧ ((s.ring r).holdPending = false → s.floorLine.cond = .up →
                  (0 < o.profile.resumePause → (t.ring r).state = .leadIn ∧ (t.ring r).stall = .none
                    ∧ (t.ring r).timer = some { elapsed := 0, limit := o.profile.resumePause })
                  ∧ (o.profile.resumePause = 0 → (t.ring r).claims = 2 → (t.ring r).state = .descending
                    ∧ (t.ring r).stall = .none
                    ∧ (t.ring r).timer = some { elapsed := 0, limit := o.profile.interval }))))

/-- R62, R63, R85 to R88, R90 and R91: one slot judged by the checks of Table 3-6 in order; one that passes buys its
affordable count: lot, postings, crates, day totals, SALE record, claim, last sale, answer. The hall flags after its
two postings are log 22. -/
def Obligations.SlotJudgedAndSold : Prop :=
  ∀ (s : State) (r : RingNo) (o : Offer) (z : StopSlot),
    ∀ l, s.lot o.lot = some l → s.boards.answers.length < 16 →
      (∀ code, (match s.keypads.find z.keypad with
          | none => some AnswerCode.unknown
          | some kp =>
            if kp.enabled = false then some .unknown
            else match kp.account.bind s.account with
              | none => some .unknown
              | some buyer =>
                if buyer.kind ≠ .buyer then some .unknown
                else if kp.rings.get r = false then some .notPermitted
                else if buyer.state = .stopped then some .stopped
                else if affordable
                    { netRemaining := l.netRemaining, cratesRemaining := l.remaining, price := o.price,
                      sellerRate := s.par.sellerLevy, buyerRate := s.par.buyerCommission,
                      deposit := s.depositOf l.ctype }
                    buyer.available (if z.wanted = 0 ∨ l.remaining < z.wanted then l.remaining else z.wanted) = 0
                  then some .credit
                else none) = some code →
          (s.resolveSlot r o z).boards.answers = s.boards.answers
              ++ [{ keypad := z.keypad, ring := r.num, code := code, lot := some o.lot, crates := none, price := none,
                    arrival := some z.at_ }]
            ∧ { s.resolveSlot r o z with boards := s.boards } = s)
      ∧ (∀ kp, s.keypads.find z.keypad = some kp → ∀ buyer, kp.account.bind s.account = some buyer →
          ∀ boat, s.account l.boat = some boat → ∀ hall, s.account 0 = some hall →
          kp.enabled = true → buyer.kind = .buyer → kp.rings.get r = true → buyer.state = .opened →
          buyer.number ≠ l.boat → buyer.number ≠ 0 → l.boat ≠ 0 → 1 ≤ l.remaining →
          ∀ i, i = SaleInputs.mk l.netRemaining l.remaining o.price s.par.sellerLevy s.par.buyerCommission
                (s.depositOf l.ctype) →
          ∀ k, k = affordable i buyer.available
                (if z.wanted = 0 ∨ l.remaining < z.wanted then l.remaining else z.wanted) →
            (k ≠ 0 →
                (s.resolveSlot r o z).lot o.lot = some { l with
                    remaining := l.remaining - k, netRemaining := l.netRemaining - (i.figures k).w,
                    soldCrates := l.soldCrates + k, soldNet := l.soldNet + (i.figures k).w }
                ∧ (∀ n, n ≠ o.lot → (s.resolveSlot r o z).lot n = s.lot n)
                ∧ (s.resolveSlot r o z).boards.answers = s.boards.answers
                    ++ [{ keypad := z.keypad, ring := r.num, code := .accepted, lot := some o.lot, crates := some k,
                          price := some o.price, arrival := some z.at_ }]
                ∧ (s.resolveSlot r o z).ring r = { s.ring r with
                    claims := (s.ring r).claims - 1
                    offer := (s.ring r).offer.map (fun p =>
                      { p with lastSale := some { keypad := z.keypad, crates := k, price := o.price } }) }
                ∧ (s.resolveSlot r o z).queue.owed = s.queue.owed - 1
                ∧ (Table.Sorted buyer.crates → inBounds (buyer.crateBalance l.ctype + k) →
                    inBounds (buyer.balance - (i.figures k).charge) →
                    inBounds (boat.balance + (i.figures k).boatCredit) →
                    inBounds (hall.balance + (i.figures k).charge) →
                    inBounds (hall.balance + (i.figures k).charge - (i.figures k).boatCredit) →
                    (∃ b, (s.resolveSlot r o z).account buyer.number = some b
                      ∧ b.balance = buyer.balance - (i.figures k).charge ∧ 0 ≤ b.available ∧ b.state = .opened
                      ∧ b.crateBalance l.ctype = buyer.crateBalance l.ctype + k
                      ∧ b.totals = { buyer.totals with
                          bought := min 4000000000 (buyer.totals.bought + (i.figures k).value)
                          levies := min 4000000000 (buyer.totals.levies + (i.figures k).commission) }
                      ∧ b.flags = { n := decide (b.balance < 0), z := decide (b.balance = 0), v := false, l := false }
                      ∧ s.wrote (s.resolveSlot r o z) (.sale o.lot r.num z.keypad buyer.number l.boat k
                          (i.figures k).w o.price (i.figures k).value (i.figures k).sellerLevy
                          (i.figures k).commission (i.figures k).deposit b.flags))
                    ∧ (∃ c, (s.resolveSlot r o z).account l.boat = some c
                      ∧ c.balance = boat.balance + (i.figures k).boatCredit ∧ c.state = boat.state
                      ∧ c.crates = boat.crates
                      ∧ c.totals = { boat.totals with
                          sold := min 4000000000 (boat.totals.sold + (i.figures k).value)
                          levies := min 4000000000 (boat.totals.levies + (i.figures k).sellerLevy) })
                    ∧ (∃ h, (s.resolveSlot r o z).account 0 = some h
                      ∧ h.balance = hall.balance + (i.figures k).charge - (i.figures k).boatCredit
                      ∧ h.totals = hall.totals)
                    ∧ (s.resolveSlot r o z).bank.residue = s.bank.residue
                    ∧ (s.resolveSlot r o z).bank.holds = s.bank.holds)))

/-- R64, R67, R173 and R172: the after-sale hold ends in WAITING, or HELD by a pending HOLD; a pace timer's expiry makes
a PACED slot READY and leaves a slot that is NONE; the content a ring gives its slot, with boat and species kept and 0
and 0 after a sell-out; a change of price alone waits for the pace timer, every other change makes the slot READY. That
a resolution changes the slot when it is over is log 17. -/
def Obligations.AfterSaleAndPaceEnd : Prop :=
  ∀ (r : RingNo) (s : State),
    (∀ old, (s.slot r).content = some old →
      ((s.ring r).midway = true → s.syncSlot r = s)
      ∧ ((s.ring r).midway = false →
          { s.syncSlot r with boards := { s.boards with slots := (s.syncSlot r).boards.slots } } = s.syncSlot r
          ∧ { s.syncSlot r with boards := s.boards } = s ∧ (∀ q, q ≠ r → (s.syncSlot r).slot q = s.slot q)
          ∧ ((s.syncSlot r).slot r).pace = (s.slot r).pace
          ∧ (∃ c, ((s.syncSlot r).slot r).content = some c
              ∧ c.state = (s.ring r).state ∧ (c.held = true ↔ (s.ring r).state = .held)
              ∧ ((s.ring r).offer = none → c.lot = none ∧ c.boat = none ∧ c.species = none ∧ c.crates = none
                  ∧ c.net = none ∧ c.price = none ∧ c.lastSale = none)
              ∧ (∀ o, (s.ring r).offer = some o → c.lot = some o.lot ∧ c.price = some o.price
                  ∧ c.lastSale = o.lastSale
                  ∧ (∀ l, s.lot o.lot = some l → (s.ring r).state ≠ .afterSale → c.boat = some l.boat
                      ∧ c.species = some l.species ∧ c.crates = some l.remaining ∧ c.net = some l.netRemaining)
                  ∧ ((s.ring r).state = .afterSale → c.boat = old.boat ∧ c.species = old.species
                      ∧ c.crates = some 0 ∧ c.net = some 0))
              ∧ (c = old → (s.syncSlot r).slot r = s.slot r)
              ∧ (c ≠ old → { c with price := old.price } ≠ old → ((s.syncSlot r).slot r).readiness = .ready)
              ∧ (c ≠ old → { c with price := old.price } = old →
                  ((s.slot r).readiness ≠ .none → ((s.syncSlot r).slot r).readiness = (s.slot r).readiness)
                  ∧ ((s.slot r).readiness = .none → (s.slot r).pace = none →
                      ((s.syncSlot r).slot r).readiness = .ready)
                  ∧ ((s.slot r).readiness = .none → (s.slot r).pace ≠ none →
                      ((s.syncSlot r).slot r).readiness = .paced)))))
    ∧ (∃ t, exec (.afterSaleExpiry r) s = .next t
      ∧ ((s.ring r).state ≠ .afterSale ∨ timerDue (s.ring r).timer = false → t = s)
      ∧ ((s.ring r).state = .afterSale → timerDue (s.ring r).timer = true →
          (∀ q, q ≠ r → (s.ring q).sameButMarks (t.ring q))
          ∧ { t with rings := s.rings, boards := s.boards, floor := s.floor } = s
          ∧ ((s.ring r).holdPending = false → Ring.sameButMarks { s.ring r with
              state := .waiting, offer := none, timer := none, stall := .none, told := false } (t.ring r))
          ∧ ((s.ring r).holdPending = true → Ring.sameButMarks { s.ring r with
              state := .held, offer := none, timer := none, stall := .none, told := false, holdPending := false,
              heldOffice := true, heldFloor := false } (t.ring r))))
    ∧ (∃ t, exec (.paceExpiry r) s = .next t
        ∧ (timerDue (s.slot r).pace = false → t = s)
        ∧ (timerDue (s.slot r).pace = true →
            { t with rings := s.rings, boards := s.boards, floor := s.floor } = s
            ∧ (∀ q, (s.ring q).sameButMarks (t.ring q))
            ∧ (s.floorLine.cond ≠ .up ∨ s.floor.stage ≠ none →
                t.slot r = { s.slot r with pace := none, readiness :=
                    if (s.slot r).readiness = .paced then .ready else (s.slot r).readiness }
                  ∧ (∀ q, q ≠ r → t.slot q = s.slot q) ∧ t.rings = s.rings ∧ t.floor = s.floor
                  ∧ t.boards.answers = s.boards.answers)))

/-! ## Sale arithmetic (chapter 4) -/

/-- R80, R81 and R82: sold net, value and levies, with the bounds, sums and examples the rules give. -/
def Obligations.SoldNetAndLevies : Prop :=
  (∀ nr cr k : Nat, 1 ≤ k → k ≤ cr → cr ≤ nr →
      soldNet nr cr k = (if k = cr then nr else nr * k / cr) ∧ k ≤ soldNet nr cr k ∧ soldNet nr cr k ≤ nr
        ∧ cr - k ≤ nr - soldNet nr cr k)
    ∧ (∀ (nr cr : Nat) (ks : List Nat), 1 ≤ cr → cr ≤ nr → (∀ k ∈ ks, 1 ≤ k) → ks.sum = cr →
        (soldParts nr cr ks).sum = nr)
    ∧ soldParts 100 3 [1, 1, 1] = [33, 33, 34]
    ∧ (∀ w p : Nat, saleValue w p = (w * p + 50) / 100
        ∧ (50 ≤ w * p % 100 → saleValue w p = w * p / 100 + 1) ∧ (w * p % 100 ≤ 49 → saleValue w p = w * p / 100)
        ∧ (w * p < 50 → saleValue w p = 0))
    ∧ saleValue 150 1 = 2 ∧ saleValue 149 1 = 1
    ∧ (∀ v rate : Nat, levy v rate = (v * rate + 5000) / 10000 ∧ levy v 0 = 0 ∧ levy 0 rate = 0
        ∧ (rate ≤ 2000 → levy v rate ≤ v ∧ levy v rate ≤ (2 * v + 5) / 10))
    ∧ levy 100 50 = 1 ∧ levy 99 50 = 0

/-- R80 to R84: the figures of a sale, its charge and its credit, and the affordable count: the largest number of
crates, up to the number wanted, whose charge the credit covers; the charge does not fall as the count grows. -/
def Obligations.AffordableCountIsLargest : Prop :=
  ∀ (i : SaleInputs) (credit : Int) (wanted : Nat),
    (∀ k, (i.figures k).w = soldNet i.netRemaining i.cratesRemaining k
        ∧ (i.figures k).sellerLevy = levy (i.figures k).value i.sellerRate
        ∧ (i.figures k).commission = levy (i.figures k).value i.buyerRate
        ∧ (i.figures k).deposit = k * i.deposit
        ∧ (i.figures k).charge
          = (i.figures k).value + levy (i.figures k).value i.buyerRate + k * i.deposit
        ∧ (i.sellerRate ≤ 2000 → (i.figures k).boatCredit + levy (i.figures k).value i.sellerRate = (i.figures k).value
            ∧ (i.figures k).charge - (i.figures k).boatCredit
                = levy (i.figures k).value i.sellerRate + levy (i.figures k).value i.buyerRate + k * i.deposit)
        ∧ (i.figures k).value = saleValue (soldNet i.netRemaining i.cratesRemaining k) i.price)
    ∧ clampWanted wanted i.cratesRemaining
        = (if wanted = 0 ∨ i.cratesRemaining < wanted then i.cratesRemaining else wanted)
    ∧ affordable i credit (clampWanted wanted i.cratesRemaining) ≤ clampWanted wanted i.cratesRemaining
    ∧ (affordable i credit (clampWanted wanted i.cratesRemaining) ≠ 0 →
        ((i.figures (affordable i credit (clampWanted wanted i.cratesRemaining))).charge : Int) ≤ credit)
    ∧ (∀ j, affordable i credit (clampWanted wanted i.cratesRemaining) < j →
        j ≤ clampWanted wanted i.cratesRemaining → credit < ((i.figures j).charge : Int))
    ∧ (∀ j k, j ≤ k → k ≤ i.cratesRemaining → (i.figures j).charge ≤ (i.figures k).charge)

/-! ## The management unit and its requests (chapters 10 and 12) -/

/-- R179, R180, R150 and R202: every office frame is carried by one of the rows of the table. While a response waits
in the transmit stage, or another frame stands before it, a frame that arrives waits in the receive stage, and one
that finds both entries occupied is counted as an overrun and changes nothing else (log 4); FRAME_SENT takes what
waits. A frame taken gets exactly one response; a payload of the wrong length is answered RANGE and changes nothing.
Result fields of a refused request: log 7. -/
def Obligations.OfficeFramesAnswered : Prop :=
  (∀ (f : Frame), f.payload.length ≤ 120 → ∃ i : Instr, i.wellFormed = true ∧ officeFrame i = some f)
  ∧ (∀ (i : Instr) (s : State), i.wellFormed = true →
    ∀ f, officeFrame i = some f →
      (s.office.stage ≠ none ∨ (s.office.rx ≠ [] ∧ s.office.rx.head? ≠ some f) → ∃ t, exec i s = .next t
          ∧ { t with office := s.office } = s
          ∧ (s.office.rx.length < 2 → t.office = { s.office with rx := s.office.rx ++ [f] })
          ∧ (2 ≤ s.office.rx.length → t.office = { s.office with cntO := min 65535 (s.office.cntO + 1) }))
      ∧ (s.takes f → ∃ t, exec i s = .next t ∧ (∃ st result,
              t.office.rx = s.office.rx.drop 1
                ∧ t.office.onLine = (s.office.place (t.responseFrame f.src f.kind st result)).onLine
                ∧ t.office.stage = (s.office.place (t.responseFrame f.src f.kind st result)).stage)
          ∧ (misfit i → s.answered t f .range [] ∧ { t with office := s.office } = s)))

/-- R181, R166 and R178: RUN is refused STATE in RUN and without HALL; else the part is in RUN, the poller polls or
waits out a BREAK, and every board slot takes its ring's content. -/
def Obligations.RunStarts : Prop :=
  ∀ (src : Byte) (s : State), s.takes (requestFrame src 0x20 []) →
    ∃ t, exec (.run src []) s = .next t
      ∧ (s.hall = none ∨ s.op = .run → s.answered t (requestFrame src 0x20 []) .state []
          ∧ { t with office := s.office } = s)
      ∧ (s.hall ≠ none → s.op = .load → s.answered t (requestFrame src 0x20 []) .ok [] ∧ t.op = .run
          ∧ (s.quay.inBreak = false → t.poller.state = .polling
              ∧ t.poller.cycleTimer = some { elapsed := 0, limit := s.par.cyclePeriod }
              ∧ t.poller.cycle = (if s.nextEnabled 0 = none then none else some true))
          ∧ (s.quay.inBreak = true → t.poller.state = .broken .polling
              ∧ t.poller.breakTimer = some { elapsed := 0, limit := s.par.missLimit * s.par.cyclePeriod })
          ∧ (∀ r, (s.ring r).sameButMarks (t.ring r)
              ∧ ∃ c, (t.slot r).content = some c ∧ c.state = (s.ring r).state
                ∧ c.lot = (s.ring r).offer.map (fun o => o.lot))
          ∧ { t with office := s.office, op := s.op, poller := s.poller, stations := s.stations, quay := s.quay,
                     rings := s.rings, boards := s.boards, floor := s.floor } = s)

/-- R191 with R45, R76, R118, R135, R148, R155, R166 and R178: RESTART ends all work with its records and the CLOSED
answers of the stops held, keeps what the rules keep, accounts, OFFICE holds, tables, counters and pending notices
among it, and leaves no claim owed. The lot of an offer is QUEUED again with its offers made lowered by one; the
accounts, holds and types take what the dispenses and sessions ended come to together, where nothing saturates.
Resolutions that stand between their slots end first: logs 5 and 17. That slot 1's CLOSED comes before slot 2's is log
37; the two bytes of each count in the response are log 32. -/
def Obligations.RestartEndsAllWork : Prop :=
  ∀ (src : Byte) (s : State), s.takes (requestFrame src 0x21 []) →
    ∃ t, exec (.restart src []) s = .next t
      ∧ exec (.restart src []) s.finishResolutions = .next t
      ∧ (∀ r, (s.finishResolutions.ring r).midway = false)
      ∧ ((∀ r, (s.ring r).midway = false) →
          s.answered t (requestFrame src 0x21 []) .ok
              (be 2 s.jobAddrs.length ++ be 2 s.sessionAddrs.length ++ be 2 t.queue.records.length)
          ∧ t.op = .load ∧ t.poller = Poller.reset
          ∧ (∀ r, (t.ring r).state = .idle ∧ (t.ring r).offer = none ∧ (t.ring r).claims = 0
              ∧ (t.ring r).heldOffice = false ∧ (t.ring r).heldFloor = false ∧ (t.ring r).holdPending = false
              ∧ (t.ring r).stall = .none ∧ (t.ring r).setSeen = false ∧ (t.ring r).clearSeen = false
              ∧ t.slot r = BoardSlot.reset)
          ∧ (∀ r, (s.ring r).offer = none → (t.ring r).queue = (s.ring r).queue)
          ∧ (∀ r o, (s.ring r).offer = some o →
              (t.ring r).queue = (if (s.ring r).state = .afterSale then (s.ring r).queue else o.lot :: (s.ring r).queue))
          ∧ (∀ a st, s.station a = some st → Table.Sorted s.stations → ∃ u, t.station a = some u ∧ u.misses = 0
              ∧ u.commands = [] ∧ u.lastHeard = none ∧ u.live = st.live ∧ u.enabled = st.enabled
              ∧ u.device.claims = 0 ∧ u.device.sameKind st.device = true)
          ∧ t.ice.screw = .dry ∧ t.ice.latch = [] ∧ t.ice.low = false ∧ t.ice.level = none ∧ t.ice.emptyFlag = none
          ∧ t.ice.officeFloor = s.ice.officeFloor
          ∧ t.quay.rx = [] ∧ t.floor.rx = []
          ∧ t.quay.cntF = s.quay.cntF ∧ t.quay.cntC = s.quay.cntC ∧ t.quay.cntL = s.quay.cntL
          ∧ t.quay.cntO = s.quay.cntO ∧ t.quay.cntB = s.quay.cntB
          ∧ (s.poller.state = .polling ∨ s.poller.state = .listen →
              (s.quay.onLine = none → t.quay.onLine = some stopAllFrame)
                ∧ (∀ g, s.quay.onLine = some g → t.quay.onLine = some g ∧ t.quay.stage = some stopAllFrame))
          ∧ (s.poller.state = .off ∨ s.poller.state.isBroken = true →
              t.quay.onLine = s.quay.onLine ∧ t.quay.stage = s.quay.stage)
          ∧ (ClaimLaw s → Table.Sorted s.stations → t.queue.owed = 0)
          ∧ (Table.Sorted s.stations →
              t.queue.records.length = s.queue.records.length + s.jobAddrs.length + s.sessionAddrs.length)
          ∧ t.queue.records.take s.queue.records.length = s.queue.records
          ∧ (∀ n l, s.lot n = some l → ∃ m, t.lot n = some m ∧ { m with state := l.state, offers := l.offers } = l)
          ∧ (∀ n, (∀ q p, (s.ring q).offer = some p → (s.ring q).state ≠ .afterSale → p.lot ≠ n) → t.lot n = s.lot n)
          ∧ (∀ q p, (s.ring q).offer = some p → (s.ring q).state ≠ .afterSale → ∀ l, s.lot p.lot = some l →
              (∀ q', q' ≠ q → ∀ p', (s.ring q').offer = some p' → p'.lot ≠ p.lot) →
              t.lot p.lot = some { l with state := .queued, offers := l.offers - 1 })
          ∧ (Table.Sorted s.stations → t.lotStore.reserved = s.lotStore.reserved - s.totalOf (fun st => st.device.drafts))
          ∧ (HoldLaw s → CrateLaw s → ∀ hall, s.account 0 = some hall →
              (∀ n x, s.account n = some x → n ≠ 0 → x.totals.ice ≤ 4000000000 →
                ∃ y, t.account n = some y ∧ y.held = heldOn t.bank.holds n
                  ∧ y.totals = { x.totals with
                      ice := min 4000000000 (x.totals.ice + s.totalOf (Station.iceCharged (fun m => m == n))) }
                  ∧ (inBounds (x.balance - s.totalOf (s.debitAtEnd (fun m => m == n))) →
                      inBounds (x.balance + s.totalOf (s.creditAtEnd (fun m => m == n))) →
                      y.balance = x.balance - s.totalOf (s.debitAtEnd (fun m => m == n))
                        + s.totalOf (s.creditAtEnd (fun m => m == n)))
                  ∧ (∀ ct, inBounds (x.crateBalance ct + s.totalOf (Station.cratesAtEnd (fun m => m == n) .out ct)) →
                      inBounds (x.crateBalance ct - s.totalOf (Station.cratesAtEnd (fun m => m == n) .into ct)) →
                      y.crateBalance ct = x.crateBalance ct + s.totalOf (Station.cratesAtEnd (fun m => m == n) .out ct)
                        - s.totalOf (Station.cratesAtEnd (fun m => m == n) .into ct)))
              ∧ (s.stations.any (fun z => z.2.device.namesAccount 0) = false →
                  inBounds (hall.balance + s.totalOf (s.debitAtEnd (fun _ => true))) →
                  inBounds (hall.balance - s.totalOf (s.creditAtEnd (fun _ => true))) →
                  (t.account 0).map (fun y => y.balance) = some (hall.balance
                    + s.totalOf (s.debitAtEnd (fun _ => true)) - s.totalOf (s.creditAtEnd (fun _ => true))))
              ∧ (∀ ct c, s.crateTypes.find ct = some c →
                  s.totalOf (Station.cratesAtEnd (fun _ => true) .out ct) ≤ c.store →
                  c.store + s.totalOf (Station.cratesAtEnd (fun _ => true) .into ct) ≤ storeBound →
                  ∃ y, t.crateTypes.find ct = some y ∧ y.shortfall = c.shortfall
                    ∧ y.store = c.store + s.totalOf (Station.cratesAtEnd (fun _ => true) .into ct)
                        - s.totalOf (Station.cratesAtEnd (fun _ => true) .out ct)))
          ∧ t.hall = s.hall ∧ t.species = s.species ∧ t.profiles = s.profiles ∧ t.keypads = s.keypads
          ∧ t.clock = s.clock ∧ t.noticeLevel = s.noticeLevel ∧ t.floorLine = s.floorLine ∧ t.pending = s.pending
          ∧ t.bank.nextHold = s.bank.nextHold ∧ t.lotStore.next = s.lotStore.next
          ∧ t.boards.text = s.boards.text
          ∧ t.floor.cntF = s.floor.cntF ∧ t.floor.cntC = s.floor.cntC ∧ t.floor.cntL = s.floor.cntL
          ∧ t.floor.cntO = s.floor.cntO ∧ t.floor.cntB = s.floor.cntB ∧ t.floor.inBreak = s.floor.inBreak
          ∧ t.quay.inBreak = s.quay.inBreak
          ∧ (∀ n c, s.crateTypes.find n = some c → ∃ x, t.crateTypes.find n = some x ∧ x.tare = c.tare
              ∧ x.deposit = c.deposit ∧ x.pool = c.pool)
          ∧ (Table.Sorted s.latches → ∀ n,
              ((s.latchAt n).pending = true → (t.latchAt n).pending = true
                ∧ (t.latchAt n).subject = (s.latchAt n).subject ∧ (t.latchAt n).cause = (s.latchAt n).cause
                ∧ (t.latchAt n).time = (s.latchAt n).time)
              ∧ (n ∉ [2, 8, 9, 12, 16] → t.latchAt n = s.latchAt n))
          ∧ (HoldLaw s → t.bank.holds = s.bank.holds.filter (fun h => h.owner == .office)
              ∧ (∀ n x, s.account n = some x → ∃ y, t.account n = some y ∧ y.kind = x.kind ∧ y.limit = x.limit
                  ∧ y.overdraft = x.overdraft
                  ∧ (n ≠ 0 → s.stations.all (fun z => !(z.2.device.namesAccount n)
                      || z.2.device.isWeigh) = true → y = x)))
          ∧ (Table.Sorted s.stations →
              (∀ a cfg ch, s.weighAt a = some (cfg, ch) → t.weighAt a = some (cfg,
                  { tracker := { state := .moving, counter := 0, previous := none, held := none }
                    state := match ch.state with
                      | .capture _ => .idle
                      | .idle => .idle
                      | .offline => .offline }))
              ∧ (∀ a cfg c, s.chuteAt a = some (cfg, c) → t.chuteAt a = some (cfg, { c with job := none })
                  ∧ (∀ d, c.job = some d → (t.queue.records.drop s.queue.records.length).any (fun x =>
                      match x.body with
                      | .ice n m o g k y z _ => n == s.chuteNo a && m == d.account && o == d.ordered && g == d.granted
                          && k == d.delivered + d.current
                          && y == (if d.started then (d.delivered + d.current) * d.price else 0) && z == .restart
                      | _ => false) = true))
              ∧ (∀ a dir g, s.gateAt a = some (dir, g) → (∃ x, t.gateAt a = some x ∧ x.1 = dir ∧ x.2.tag = g.tag
                    ∧ x.2.session = none)
                  ∧ (∀ y, g.session = some y → (t.queue.records.drop s.queue.records.length).any (fun x =>
                      x.body == .crate (s.gateNo a) y.account y.ctype y.dir y.count
                        (y.count * s.depositOf y.ctype) .restart) = true)))
          ∧ (s.floorLine.cond ≠ .up → t.boards.answers = s.boards.answers)
          ∧ (s.floorLine.cond = .up → s.floor.stage ≠ none → s.boards.answers.length ≤ 8 →
              t.boards.answers.take s.boards.answers.length = s.boards.answers
              ∧ (∀ r : RingNo, ∀ o, (s.ring r).offer = some o → (s.ring r).state = .resolving →
                  (t.boards.answers.drop s.boards.answers.length).filter (fun x => x.ring == r.num)
                    = ([o.slot1, o.slot2].filterMap id).map (fun z =>
                        { keypad := z.keypad, ring := r.num, code := .closed, lot := some o.lot, crates := none,
                          price := none, arrival := some z.at_ }))))

/-- R182 and R187 with Table 10-4: a LOAD of one HALL entry is judged whole; written, it replaces every parameter,
sets the notice level and starts the silence timer at the first write. The order of refusals is log 8, the start
index given with one log 7. -/
def Obligations.LoadOfHallIsWhole : Prop :=
  ∀ (src : Byte) (body : List Byte) (s : State), body.length = 33 → s.takes (loadFrame src 1 body) →
    ∃ t, exec (.loadHall src body) s = .next t
      ∧ (∀ h, h = readHallEntry (body.drop 2) →
          (fieldAt body 0 2 ≠ 1 →
            s.answered t (loadFrame src 1 body) .badIndex (be 2 (fieldAt body 0 2))
              ∧ { t with office := s.office } = s)
          ∧ (fieldAt body 0 2 = 1 →
              (h.sellerLevy ≤ 2000 ∧ h.buyerCommission ≤ 2000 ∧ h.iceBoats ≤ 1000 ∧ h.iceBuyers ≤ 1000
                ∧ (h.netStep = 1 ∨ h.netStep = 2 ∨ h.netStep = 5 ∨ h.netStep = 10)
                ∧ 5 ≤ h.captureTimeout ∧ h.captureTimeout ≤ 120 ∧ 50 ≤ h.resolveWindow ∧ h.resolveWindow ≤ 1000
                ∧ h.reofferLimit ≤ 3 ∧ 5 ≤ h.replyTimeout ∧ h.replyTimeout ≤ 100 ∧ 1 ≤ h.missLimit ∧ h.missLimit ≤ 15
                ∧ 50 ≤ h.cyclePeriod ∧ h.cyclePeriod ≤ 2000 ∧ 10 ≤ h.breakTime ∧ h.breakTime ≤ 1000
                ∧ 200 ≤ h.floorSilence ∧ h.floorSilence ≤ 5000 ∧ 10 ≤ h.gateIdle ∧ h.gateIdle ≤ 600
                ∧ 60 ≤ h.iceWait ∧ h.iceWait ≤ 3600 ∧ h.reserveLevel ≤ 7 ∧ h.lowMark ≤ 99
                ∧ h.lowMark + 1 ≤ h.resumeMark ∧ h.resumeMark ≤ 100 ∧ 100 ≤ h.boardInterval ∧ h.boardInterval ≤ 2000
                ∧ h.noticeLevel ≤ 7 →
                s.answered t (loadFrame src 1 body) .ok (be 2 2) ∧ t.hall = some h ∧ t.noticeLevel = h.noticeLevel
                  ∧ t.floorLine.cond = s.floorLine.cond
                  ∧ t.floorLine.silence = (if s.hall = none then some { elapsed := 0, limit := h.floorSilence }
                      else s.floorLine.silence)
                  ∧ { t with office := s.office, hall := s.hall, noticeLevel := s.noticeLevel,
                             floorLine := s.floorLine } = s)
              ∧ (2000 < h.sellerLevy ∨ 2000 < h.buyerCommission ∨ 1000 < h.iceBoats ∨ 1000 < h.iceBuyers
                ∨ (h.netStep ≠ 1 ∧ h.netStep ≠ 2 ∧ h.netStep ≠ 5 ∧ h.netStep ≠ 10)
                ∨ h.captureTimeout < 5 ∨ 120 < h.captureTimeout ∨ h.resolveWindow < 50 ∨ 1000 < h.resolveWindow
                ∨ 3 < h.reofferLimit ∨ h.replyTimeout < 5 ∨ 100 < h.replyTimeout ∨ h.missLimit < 1 ∨ 15 < h.missLimit
                ∨ h.cyclePeriod < 50 ∨ 2000 < h.cyclePeriod ∨ h.breakTime < 10 ∨ 1000 < h.breakTime
                ∨ h.floorSilence < 200 ∨ 5000 < h.floorSilence ∨ h.gateIdle < 10 ∨ 600 < h.gateIdle
                ∨ h.iceWait < 60 ∨ 3600 < h.iceWait ∨ 7 < h.reserveLevel ∨ 99 < h.lowMark
                ∨ h.resumeMark < h.lowMark + 1 ∨ 100 < h.resumeMark ∨ h.boardInterval < 100 ∨ 2000 < h.boardInterval
                ∨ 7 < h.noticeLevel →
                s.answered t (loadFrame src 1 body) .range (be 2 1) ∧ { t with office := s.office } = s)))

/-- R182, R185, R186 and R202: a LOAD of one entry of SPECIES, PROFILES, KEYPADS or BOARD TEXT writes it, frees it, or
is refused with the index of the refused entry: BAD_INDEX, RANGE, or DUPLICATE for a code another entry holds. Every
write and every FREE of SPECIES or PROFILES lets a ring stalled PROFILE try again. The order of refusals is log 8,
which fields of an entry marked FREE are judged log 13. -/
def Obligations.LoadOfSmallTables : Prop :=
  ∀ (src : Byte) (body : List Byte) (s : State),
    (body.length = 10 → s.takes (loadFrame src 3 body) →
      ∃ t, exec (.loadSpecies src body) s = .next t
        ∧ { t with office := s.office, species := s.species, rings := s.rings } = s
        ∧ (∀ r, (s.ring r).sameButTold (t.ring r))
        ∧ (fieldAt body 0 2 = 0 ∨ 64 < fieldAt body 0 2 → t.species = s.species
            ∧ s.answered t (loadFrame src 3 body) .badIndex (be 2 (fieldAt body 0 2)))
        ∧ (1 ≤ fieldAt body 0 2 → fieldAt body 0 2 ≤ 64 → fieldAt body 9 1 = 1 →
            t.species = s.species.erase (fieldAt body 0 2)
              ∧ (∀ q, (s.ring q).state = .waiting → (s.ring q).stall = .profile → (t.ring q).told = true)
              ∧ s.answered t (loadFrame src 3 body) .ok (be 2 (fieldAt body 0 2 + 1)))
        ∧ (∀ r, RingNo.ofNum (fieldAt body 4 1) = some r →
            1 ≤ fieldAt body 0 2 → fieldAt body 0 2 ≤ 64 → fieldAt body 9 1 = 0 →
            1 ≤ fieldAt body 2 2 → fieldAt body 2 2 ≤ 9999 → 1 ≤ fieldAt body 5 1 → fieldAt body 5 1 ≤ 16 →
            fieldAt body 6 1 ≤ 250 → 1 ≤ fieldAt body 7 2 → fieldAt body 7 2 ≤ 1000 →
            fieldAt body 6 1 ≤ fieldAt body 7 2 →
            ((∀ x ∈ s.species, x.1 ≠ fieldAt body 0 2 → x.2.code ≠ fieldAt body 2 2) →
              t.species.find (fieldAt body 0 2) = some {
                  code := fieldAt body 2 2, ring := r, profile := fieldAt body 5 1, m := fieldAt body 6 1, n := fieldAt body 7 2 }
                ∧ (∀ n, n ≠ fieldAt body 0 2 → t.species.find n = s.species.find n)
                ∧ (∀ q, (s.ring q).state = .waiting → (s.ring q).stall = .profile → (t.ring q).told = true)
                ∧ s.answered t (loadFrame src 3 body) .ok (be 2 (fieldAt body 0 2 + 1)))
            ∧ (¬ (∀ x ∈ s.species, x.1 ≠ fieldAt body 0 2 → x.2.code ≠ fieldAt body 2 2) →
              t.species = s.species
                ∧ s.answered t (loadFrame src 3 body) .duplicate (be 2 (fieldAt body 0 2))))
        ∧ (1 ≤ fieldAt body 0 2 → fieldAt body 0 2 ≤ 64 →
            1 < fieldAt body 9 1 ∨ (fieldAt body 9 1 = 0 ∧ (RingNo.ofNum (fieldAt body 4 1) = none
              ∨ fieldAt body 2 2 = 0 ∨ 9999 < fieldAt body 2 2 ∨ fieldAt body 5 1 = 0 ∨ 16 < fieldAt body 5 1
              ∨ 250 < fieldAt body 6 1 ∨ fieldAt body 7 2 = 0 ∨ 1000 < fieldAt body 7 2
              ∨ fieldAt body 7 2 < fieldAt body 6 1)) →
            t.species = s.species ∧ s.answered t (loadFrame src 3 body) .range (be 2 (fieldAt body 0 2))))
    ∧ (body.length = 20 → s.takes (loadFrame src 4 body) →
      ∃ t, exec (.loadProfiles src body) s = .next t
        ∧ { t with office := s.office, profiles := s.profiles, rings := s.rings } = s
        ∧ (∀ r, (s.ring r).sameButTold (t.ring r))
        ∧ (fieldAt body 0 2 = 0 ∨ 16 < fieldAt body 0 2 → t.profiles = s.profiles
            ∧ s.answered t (loadFrame src 4 body) .badIndex (be 2 (fieldAt body 0 2)))
        ∧ (1 ≤ fieldAt body 0 2 → fieldAt body 0 2 ≤ 16 → fieldAt body 19 1 = 1 →
            t.profiles = s.profiles.erase (fieldAt body 0 2)
              ∧ (∀ q, (s.ring q).state = .waiting → (s.ring q).stall = .profile → (t.ring q).told = true)
              ∧ s.answered t (loadFrame src 4 body) .ok (be 2 (fieldAt body 0 2 + 1)))
        ∧ (∀ p, p = Profile.mk (fieldAt body 2 3) (fieldAt body 5 3) (fieldAt body 8 2) (fieldAt body 10 2)
                (fieldAt body 12 2) (fieldAt body 14 2) (fieldAt body 16 1) (fieldAt body 17 2) →
            1 ≤ fieldAt body 0 2 → fieldAt body 0 2 ≤ 16 → fieldAt body 19 1 = 0 →
            (1 ≤ p.start ∧ p.start ≤ 99999 ∧ 1 ≤ p.floor ∧ p.floor ≤ p.start ∧ 1 ≤ p.step ∧ p.step ≤ 10000
                ∧ 50 ≤ p.interval ∧ p.interval ≤ 5000 ∧ p.leadIn ≤ 10000 ∧ p.resumePause ≤ 10000
                ∧ p.restartRaise ≤ 20 ∧ p.afterSale ≤ 10000 →
              t.profiles.find (fieldAt body 0 2) = some p
                ∧ (∀ n, n ≠ fieldAt body 0 2 → t.profiles.find n = s.profiles.find n)
                ∧ (∀ q, (s.ring q).state = .waiting → (s.ring q).stall = .profile → (t.ring q).told = true)
                ∧ s.answered t (loadFrame src 4 body) .ok (be 2 (fieldAt body 0 2 + 1)))
            ∧ (p.start = 0 ∨ 99999 < p.start ∨ p.floor = 0 ∨ p.start < p.floor ∨ p.step = 0 ∨ 10000 < p.step
                ∨ p.interval < 50 ∨ 5000 < p.interval ∨ 10000 < p.leadIn ∨ 10000 < p.resumePause
                ∨ 20 < p.restartRaise ∨ 10000 < p.afterSale →
              t.profiles = s.profiles ∧ s.answered t (loadFrame src 4 body) .range (be 2 (fieldAt body 0 2))))
        ∧ (1 ≤ fieldAt body 0 2 → fieldAt body 0 2 ≤ 16 → 1 < fieldAt body 19 1 →
            t.profiles = s.profiles ∧ s.answered t (loadFrame src 4 body) .range (be 2 (fieldAt body 0 2))))
    ∧ (body.length = 7 → s.takes (loadFrame src 6 body) →
      ∃ t, exec (.loadKeypads src body) s = .next t
        ∧ { t with office := s.office, keypads := s.keypads } = s
        ∧ (fieldAt body 0 2 = 0 ∨ 64 < fieldAt body 0 2 → t.keypads = s.keypads
            ∧ s.answered t (loadFrame src 6 body) .badIndex (be 2 (fieldAt body 0 2)))
        ∧ (1 ≤ fieldAt body 0 2 → fieldAt body 0 2 ≤ 64 → fieldAt body 6 1 = 1 → fieldAt body 2 1 ≤ 1 →
            fieldAt body 5 1 ≤ 15 → t.keypads = s.keypads.erase (fieldAt body 0 2)
              ∧ s.answered t (loadFrame src 6 body) .ok (be 2 (fieldAt body 0 2 + 1)))
        ∧ (1 ≤ fieldAt body 0 2 → fieldAt body 0 2 ≤ 64 →
            (fieldAt body 6 1 = 0 → fieldAt body 2 1 ≤ 1 → fieldAt body 3 2 ≤ 9999 → fieldAt body 5 1 ≤ 15 →
              t.keypads.find (fieldAt body 0 2) = some
                  { enabled := fieldAt body 2 1 == 1,
                    account := if fieldAt body 3 2 = 0 then none else some (fieldAt body 3 2),
                    rings := { a1 := (fieldAt body 5 1).testBit 0, a2 := (fieldAt body 5 1).testBit 1,
                               a3 := (fieldAt body 5 1).testBit 2, a4 := (fieldAt body 5 1).testBit 3 } }
                ∧ (∀ n, n ≠ fieldAt body 0 2 → t.keypads.find n = s.keypads.find n)
                ∧ s.answered t (loadFrame src 6 body) .ok (be 2 (fieldAt body 0 2 + 1)))
            ∧ (1 < fieldAt body 6 1 ∨ 1 < fieldAt body 2 1 ∨ 15 < fieldAt body 5 1
                ∨ (fieldAt body 6 1 = 0 ∧ 9999 < fieldAt body 3 2) →
              t.keypads = s.keypads ∧ s.answered t (loadFrame src 6 body) .range (be 2 (fieldAt body 0 2)))))
    ∧ (3 ≤ body.length → body.length = 3 + fieldAt body 2 1 → s.takes (loadFrame src 8 body) →
      ∃ t, exec (.loadBoardText src body) s = .next t
        ∧ { t with office := s.office, boards := s.boards } = s
        ∧ t.boards = { s.boards with text := t.boards.text }
        ∧ (fieldAt body 0 2 = 0 ∨ 8 < fieldAt body 0 2 → t.boards.text = s.boards.text
            ∧ s.answered t (loadFrame src 8 body) .badIndex (be 2 (fieldAt body 0 2)))
        ∧ (1 ≤ fieldAt body 0 2 → fieldAt body 0 2 ≤ 8 →
            ((body.drop 3).length ≤ 32 → (∀ b ∈ body.drop 3, 0x20 ≤ b.toNat ∧ b.toNat ≤ 0x7E) →
              Table.Sorted s.boards.text → t.textLine (fieldAt body 0 2) = body.drop 3
                ∧ (∀ n, n ≠ fieldAt body 0 2 → t.textLine n = s.textLine n)
                ∧ s.answered t (loadFrame src 8 body) .ok (be 2 (fieldAt body 0 2 + 1)))
            ∧ (32 < (body.drop 3).length ∨ (body.drop 3).any (fun b => b.toNat < 0x20 || 0x7E < b.toNat) = true →
              t.boards.text = s.boards.text
                ∧ s.answered t (loadFrame src 8 body) .range (be 2 (fieldAt body 0 2)))))

/-- R19 to R21, R121 to R123, R29, R44, R96, R117, R125, R155, R183, R184 and R202: a LOAD of one entry of ACCOUNTS,
CRATES or STATIONS creates the entry, changes it, frees it, or is refused with the index of the refused entry; a
station cleared loses its record, one disabled becomes OFFLINE with its list cleared, one changed in kind keeps its
record and its old context is discarded, and where the ICEPLANT is cleared, disabled or changed the plant is unknown.
R182: the entries written before a refusal stay written, and the response gives the refused index. The order of
refusals is log 8, which fields of an entry marked FREE are judged log 13. -/
def Obligations.LoadCreatesEntries : Prop :=
  ∀ (src : Byte) (body : List Byte) (s : State),
    (body.length = 16 → s.takes (loadFrame src 7 body) →
      ∃ t, exec (.loadAccounts src body) s = .next t
        ∧ { t with office := s.office, bank := s.bank, latches := s.latches } = s
        ∧ { t.bank with accounts := s.bank.accounts } = s.bank
        ∧ (∀ i, i = fieldAt body 0 2 →
          (i = 0 ∨ 511 < i → { t with office := s.office } = s
              ∧ s.answered t (loadFrame src 7 body) .badIndex (be 2 i))
          ∧ (1 ≤ i → i ≤ 511 →
            1 < fieldAt body 15 1 ∨ fieldAt body 4 1 = 0 ∨ 3 < fieldAt body 4 1
              ∨ (s.bank.accounts.find i = none ∧ fieldAt body 15 1 = 0 ∧ (fieldAt body 4 1 = 3 ∨ fieldAt body 2 2 = 0
                ∨ 9999 < fieldAt body 2 2 ∨ 100000000 < fieldAt body 5 4
                ∨ (fieldAt body 4 1 = 1 ∧ 500 < fieldAt body 9 2))) →
            { t with office := s.office } = s ∧ s.answered t (loadFrame src 7 body) .range (be 2 i))
          ∧ (1 ≤ i → i ≤ 511 → fieldAt body 15 1 = 1 → 1 ≤ fieldAt body 4 1 → fieldAt body 4 1 ≤ 3 →
            s.bank.accounts.find i = none →
            { t with office := s.office } = s ∧ s.answered t (loadFrame src 7 body) .ok (be 2 (i + 1)))
          ∧ (1 ≤ i → i ≤ 511 → fieldAt body 15 1 = 0 → s.bank.accounts.find i = none →
            1 ≤ fieldAt body 2 2 → fieldAt body 2 2 ≤ 9999 → fieldAt body 5 4 ≤ 100000000 →
            fieldAt body 4 1 = 1 ∨ fieldAt body 4 1 = 2 → fieldAt body 4 1 = 2 ∨ fieldAt body 9 2 ≤ 500 →
              (s.account (fieldAt body 2 2) ≠ none → { t with office := s.office } = s
                  ∧ s.answered t (loadFrame src 7 body) .duplicate (be 2 i))
              ∧ (s.account (fieldAt body 2 2) = none →
                  t.account (fieldAt body 2 2) = some
                      { number := fieldAt body 2 2, kind := (if fieldAt body 4 1 = 1 then .boat else .buyer),
                        state := .opened, cause := .none, balance := 0, limit := some (fieldAt body 5 4), held := 0,
                        crates := [], overdraft := (if fieldAt body 4 1 = 1 then some (fieldAt body 9 2) else none),
                        totals := { landed := 0, sold := 0, bought := 0, ice := 0, levies := 0 },
                        flags := { n := false, z := true, v := false, l := false } }
                    ∧ (∀ n, n ≠ fieldAt body 2 2 → t.account n = s.account n) ∧ t.latches = s.latches
                    ∧ s.answered t (loadFrame src 7 body) .ok (be 2 (i + 1))))
          ∧ (∀ a, s.bank.accounts.find i = some a → 1 ≤ i → i ≤ 511 → fieldAt body 15 1 ≤ 1 →
            1 ≤ fieldAt body 4 1 → fieldAt body 4 1 ≤ 3 →
              (a.number ≠ fieldAt body 2 2 → { t with office := s.office } = s
                  ∧ s.answered t (loadFrame src 7 body) .inUse (be 2 i))
              ∧ (a.number = fieldAt body 2 2 → fieldAt body 15 1 = 1 →
                  (a.balance = 0 ∧ a.held = 0 ∧ a.noCrates = true ∧ s.accountInWork a.number = false
                      ∧ s.keypads.all (fun x => x.2.account != some a.number) = true →
                    t.bank.accounts = s.bank.accounts.erase i ∧ t.latches = s.latches
                      ∧ s.answered t (loadFrame src 7 body) .ok (be 2 (i + 1)))
                  ∧ (a.balance ≠ 0 ∨ a.held ≠ 0 ∨ a.noCrates = false ∨ s.accountInWork a.number = true
                      ∨ s.keypads.any (fun x => x.2.account == some a.number) = true →
                    { t with office := s.office } = s ∧ s.answered t (loadFrame src 7 body) .inUse (be 2 i)))
              ∧ (a.number = fieldAt body 2 2 → fieldAt body 15 1 = 0 →
                  fieldAt body 4 1 = 3 ∨ a.number = 0 ∨ 9999 < a.number ∨ 100000000 < fieldAt body 5 4
                      ∨ (fieldAt body 4 1 = 1 ∧ 500 < fieldAt body 9 2) →
                    { t with office := s.office } = s ∧ s.answered t (loadFrame src 7 body) .range (be 2 i))
              ∧ (a.number = fieldAt body 2 2 → fieldAt body 15 1 = 0 → 1 ≤ a.number → a.number ≤ 9999 →
                  fieldAt body 5 4 ≤ 100000000 → fieldAt body 4 1 = 2 ∨ (fieldAt body 4 1 = 1 ∧ fieldAt body 9 2 ≤ 500) →
                  ∀ k, k = (if fieldAt body 4 1 = 1 then AccountKind.boat else .buyer) →
                    (k ≠ a.kind → a.held ≠ 0 ∨ s.accountInWork a.number = true →
                      { t with office := s.office } = s ∧ s.answered t (loadFrame src 7 body) .inUse (be 2 i))
                    ∧ (k = a.kind ∨ (a.held = 0 ∧ s.accountInWork a.number = false) →
                      (s.bank.accounts.map (fun x => x.2.number)).Nodup →
                      s.answered t (loadFrame src 7 body) .ok (be 2 (i + 1))
                        ∧ (∀ n, n ≠ a.number → t.account n = s.account n)
                        ∧ ∀ b, b = { a with kind := k, limit := some (fieldAt body 5 4)
                                            overdraft := if fieldAt body 4 1 = 1 then some (fieldAt body 9 2)
                                              else none } →
                          (a.state = .opened → b.available < 0 → t.account a.number
                              = some { b with state := .stopped, cause := .overlimit }
                            ∧ t.latchAt 9 = (s.latchAt 9).occur s.clock (.account a.number) none)
                          ∧ (a.state = .stopped ∨ 0 ≤ b.available → t.account a.number = some b
                            ∧ t.latches = s.latches))))))
    ∧ (body.length = 9 → s.takes (loadFrame src 5 body) →
      ∃ t, exec (.loadCrates src body) s = .next t
        ∧ { t with office := s.office, crateTypes := s.crateTypes } = s
        ∧ (fieldAt body 0 2 = 0 ∨ 8 < fieldAt body 0 2 → t.crateTypes = s.crateTypes
            ∧ s.answered t (loadFrame src 5 body) .badIndex (be 2 (fieldAt body 0 2)))
        ∧ (1 ≤ fieldAt body 0 2 → fieldAt body 0 2 ≤ 8 →
          (∀ n, n ≠ fieldAt body 0 2 → t.crateTypes.find n = s.crateTypes.find n)
          ∧ (1 < fieldAt body 8 1 ∨ (fieldAt body 8 1 = 0 ∧ (1000 < fieldAt body 2 2 ∨ 5000 < fieldAt body 4 2
                ∨ (s.crateTypes.find (fieldAt body 0 2) = none ∧ 30000 < fieldAt body 6 2))) →
              t.crateTypes = s.crateTypes
                ∧ s.answered t (loadFrame src 5 body) .range (be 2 (fieldAt body 0 2)))
          ∧ (fieldAt body 8 1 = 0 → fieldAt body 2 2 ≤ 1000 → fieldAt body 4 2 ≤ 5000 →
              (∀ c, s.crateTypes.find (fieldAt body 0 2) = some c →
                t.crateTypes.find (fieldAt body 0 2)
                    = some { c with tare := fieldAt body 2 2, deposit := fieldAt body 4 2 }
                  ∧ s.answered t (loadFrame src 5 body) .ok (be 2 (fieldAt body 0 2 + 1)))
              ∧ (s.crateTypes.find (fieldAt body 0 2) = none → fieldAt body 6 2 ≤ 30000 →
                t.crateTypes.find (fieldAt body 0 2)
                    = some { tare := fieldAt body 2 2, deposit := fieldAt body 4 2, pool := fieldAt body 6 2,
                             store := fieldAt body 6 2, shortfall := 0, residue := 0 }
                  ∧ s.answered t (loadFrame src 5 body) .ok (be 2 (fieldAt body 0 2 + 1))))
          ∧ (fieldAt body 8 1 = 1 → s.crateTypes.find (fieldAt body 0 2) = none → t.crateTypes = s.crateTypes
              ∧ s.answered t (loadFrame src 5 body) .ok (be 2 (fieldAt body 0 2 + 1)))
          ∧ (∀ c, s.crateTypes.find (fieldAt body 0 2) = some c → fieldAt body 8 1 = 1 →
              (s.typeFree (fieldAt body 0 2) = true → t.crateTypes = s.crateTypes.erase (fieldAt body 0 2)
                ∧ s.answered t (loadFrame src 5 body) .ok (be 2 (fieldAt body 0 2 + 1)))
              ∧ (s.typeFree (fieldAt body 0 2) = false → t.crateTypes = s.crateTypes
                ∧ s.answered t (loadFrame src 5 body) .inUse (be 2 (fieldAt body 0 2))))))
    ∧ (body.length = 14 → s.takes (loadFrame src 2 body) →
      ∃ t, exec (.loadStations src body) s = .next t
        ∧ { t with office := s.office, stations := s.stations, quay := s.quay, ice := s.ice, latches := s.latches } = s
        ∧ (∀ i, i = fieldAt body 0 2 → ∀ no, no = be 1 (t.ownNumber i) →
          (∀ a, a ≠ i → t.station a = s.station a ∨ (s.station i).any (fun x => x.device.isIcePlant) = true)
          ∧ (i = 0 ∨ 30 < i → { t with office := s.office, quay := s.quay } = s
              ∧ s.answered t (loadFrame src 2 body) .badIndex (be 2 i))
          ∧ (1 ≤ i → i ≤ 30 →
            1 < fieldAt body 13 1 ∨ 1 < fieldAt body 3 1 ∨ fieldAt body 2 1 = 0 ∨ 4 < fieldAt body 2 1
              ∨ (fieldAt body 2 1 = 3 ∧ (fieldAt body 12 1 = 0 ∨ 3 < fieldAt body 12 1))
              ∨ (fieldAt body 13 1 = 0 ∧ fieldAt body 2 1 = 1 ∧ (fieldAt body 4 4 < 100 ∨ 300000 < fieldAt body 4 4
                ∨ fieldAt body 8 1 < 2 ∨ 15 < fieldAt body 8 1 ∨ 50 < fieldAt body 9 1))
              ∨ (fieldAt body 13 1 = 0 ∧ fieldAt body 2 1 = 2 ∧ (fieldAt body 10 1 = 0 ∨ 7 < fieldAt body 10 1
                ∨ fieldAt body 11 1 < fieldAt body 10 1 ∨ 7 < fieldAt body 11 1)) →
            { t with office := s.office, quay := s.quay } = s
              ∧ s.answered t (loadFrame src 2 body) .range (be 2 i))
          ∧ (1 ≤ i → i ≤ 30 → fieldAt body 13 1 = 1 → fieldAt body 3 1 ≤ 1 → badStationCode (body.drop 2) = false →
            (s.station i = none → { t with office := s.office, quay := s.quay } = s
              ∧ s.answered t (loadFrame src 2 body) .ok (be 2 (i + 1) ++ no))
            ∧ (∀ st, s.station i = some st →
              (st.device.busy = true → { t with office := s.office, quay := s.quay } = s
                ∧ s.answered t (loadFrame src 2 body) .inUse (be 2 i))
              ∧ (st.device.busy = false → Table.Sorted s.stations → t.station i = none
                ∧ s.answered t (loadFrame src 2 body) .ok (be 2 (i + 1) ++ [0])
                ∧ (st.device ≠ .icePlant → t.ice = s.ice ∧ t.latches = s.latches)
                ∧ (st.device = .icePlant → t.ice.screw = .dry ∧ t.ice.level = none ∧ t.ice.emptyFlag = none
                  ∧ (s.ice.screw ≠ .dry → t.latchAt 7 = (s.latchAt 7).occur s.clock .none none)))))
          ∧ (∀ d, readDevice (body.drop 2) = some d → 1 ≤ i → i ≤ 30 → fieldAt body 13 1 = 0 → fieldAt body 3 1 ≤ 1 →
            (∀ st, s.station i = some st → st.device.busy = true →
              { t with office := s.office, quay := s.quay } = s
                ∧ s.answered t (loadFrame src 2 body) .inUse (be 2 i))
            ∧ (s.kindFull i d = true → (s.station i).any (fun x => x.device.busy) = false →
              { t with office := s.office, quay := s.quay } = s
                ∧ s.answered t (loadFrame src 2 body) .full (be 2 i))
            ∧ (s.kindFull i d = false → s.station i = none →
              t.station i = some
                  { enabled := fieldAt body 3 1 == 1, device := d, live := .offline, misses := 0, commands := [],
                    lastHeard := none, age := 0, carried := false }
                ∧ t.ice = s.ice ∧ t.latches = s.latches
                ∧ s.answered t (loadFrame src 2 body) .ok (be 2 (i + 1) ++ no))
            ∧ (∀ st, s.station i = some st → s.kindFull i d = false → st.device.busy = false →
              s.answered t (loadFrame src 2 body) .ok (be 2 (i + 1) ++ no)
              ∧ (∃ u, t.station i = some u ∧ u.enabled = (fieldAt body 3 1 == 1) ∧ u.lastHeard = st.lastHeard
                ∧ u.age = st.age
                ∧ (st.enabled = true → fieldAt body 3 1 = 1 → u.live = st.live ∧ u.misses = st.misses
                    ∧ u.commands = st.commands)
                ∧ (st.enabled = true → fieldAt body 3 1 = 0 → u.live = .offline ∧ u.commands = []
                    ∧ u.misses = (if st.live = .online then 0 else st.misses))
                ∧ (st.enabled = false → fieldAt body 3 1 = 1 → u.live = .offline ∧ u.misses = 0
                    ∧ u.commands = st.commands)
                ∧ (st.enabled = false → fieldAt body 3 1 = 0 → u.live = .offline ∧ u.misses = st.misses
                    ∧ u.commands = st.commands)
                ∧ (∀ cfg ch, d = .weigh cfg ch → u.device = .weigh cfg
                    { tracker := { state := .moving, counter := 0, previous := none, held := none }
                      state := if u.live = .online then .idle else .offline })
                ∧ (∀ cfg c, d = .chute cfg c → u.device = .chute cfg (match st.device with
                    | .chute _ x => x
                    | _ => { tag := 0, job := none }))
                ∧ (∀ dir g, d = .gate dir g → u.device = .gate dir (match st.device with
                    | .gate _ x => x
                    | _ => { tag := 0, session := none, lastClose := none, report := none }))
                ∧ (d = .icePlant → u.device = .icePlant))
              ∧ (st.device ≠ .icePlant → t.ice = s.ice ∧ t.latches = s.latches)
              ∧ (st.device = .icePlant → d ≠ .icePlant ∨ (st.live = .online ∧ fieldAt body 3 1 = 0) →
                  t.ice.screw = .dry ∧ t.ice.level = none ∧ t.ice.emptyFlag = none
                  ∧ (s.ice.screw ≠ .dry → t.latchAt 7 = (s.latchAt 7).occur s.clock
                      (if d ≠ .icePlant then .none else .station i) none))
              ∧ (st.device = .icePlant → d = .icePlant → st.live = .offline ∨ fieldAt body 3 1 = 1 →
                  t.ice = s.ice ∧ t.latches = s.latches)))))
    ∧ (∀ (write : Writer) (es fs : List (List Byte)) (e : List Byte) (i : Nat) (st : Status) (u : State),
        loadEntries write es i s = (.ok, i + es.length, u) → write u (i + es.length) e = .error st →
        loadEntries write (es ++ e :: fs) i s = (st, i + es.length, u))

/-- R188, R49 and R10: a READ changes nothing; it answers its entries from the index on while they fit, or is refused
RANGE, BAD_INDEX, or NOT_FOUND for a lot number that no lot carries. The bytes of an entry, present or empty, are
those of Table 12-7 and then the state fields of R22, R24, R96, R124, R125, R49 and R10, shown by a READ of one entry.
That the count is judged before the index is log 8; the layout of the entries log 14, widths and places that no table
gives log 32, a latch order's low 16 bits log 38, codes that no table lists log 6, a gate's barrier and count before
its first report log 31; the end number 0 of a READ of LOTS that returns lot 65,535 log 33. -/
def Obligations.ReadsChangeNothing : Prop :=
  (∀ (i : Instr) (s : State),
    ∀ x, readRow i = some x → ∀ f, officeFrame i = some f → s.takes f → x.2.2.2.length = 3 →
      ∃ t, exec i s = .next t ∧ { t with office := s.office } = s
        ∧ (fieldAt x.2.2.2 2 1 = 0 ∨ 8 < fieldAt x.2.2.2 2 1 → s.answered t f .range [])
        ∧ (1 ≤ fieldAt x.2.2.2 2 1 → fieldAt x.2.2.2 2 1 ≤ 8 →
            (fieldAt x.2.2.2 0 2 < x.1 ∨ x.2.1 < fieldAt x.2.2.2 0 2 → s.answered t f .badIndex [])
            ∧ (x.1 ≤ fieldAt x.2.2.2 0 2 → fieldAt x.2.2.2 0 2 ≤ x.2.1 →
                s.answered t f .ok
                  ((readEntries (x.2.2.1 s) x.2.1 (fieldAt x.2.2.2 2 1) (fieldAt x.2.2.2 0 2) 113).1
                    ++ be 2 (readEntries (x.2.2.1 s) x.2.1 (fieldAt x.2.2.2 2 1) (fieldAt x.2.2.2 0 2) 113).2))))
  ∧ (∀ (src : Byte) (body : List Byte) (s : State), body.length = 3 → s.takes (readFrame src 9 body) →
      ∃ t, exec (.readLots src body) s = .next t ∧ { t with office := s.office } = s
        ∧ (fieldAt body 2 1 = 0 ∨ 8 < fieldAt body 2 1 → s.answered t (readFrame src 9 body) .range [])
        ∧ (1 ≤ fieldAt body 2 1 → fieldAt body 2 1 ≤ 8 → fieldAt body 0 2 = 0 →
            s.answered t (readFrame src 9 body) .badIndex [])
        ∧ (1 ≤ fieldAt body 2 1 → fieldAt body 2 1 ≤ 8 → 1 ≤ fieldAt body 0 2 →
            (s.lot (fieldAt body 0 2) = none → s.answered t (readFrame src 9 body) .notFound [])
            ∧ (s.lot (fieldAt body 0 2) ≠ none → s.answered t (readFrame src 9 body) .ok
                ((readLotEntries s (fieldAt body 2 1) (fieldAt body 0 2) 113).1
                  ++ be 2 (readLotEntries s (fieldAt body 2 1) (fieldAt body 0 2) 113).2))))
  ∧ (∀ (src : Byte) (body : List Byte) (s : State), ∀ i, i = fieldAt body 0 2 → body.length = 3 → fieldAt body 2 1 = 1 →
      (s.takes (readFrame src 1 body) → 1 ≤ i → i ≤ 1 → ∃ t, exec (.readHall src body) s = .next t
        ∧ (s.hall = none → s.answered t (readFrame src 1 body) .ok (be 2 i ++ [0] ++ be 2 (i + 1)))
        ∧ (∀ x, s.hall = some x →
            s.answered t (readFrame src 1 body) .ok (be 2 i ++ [1]
              ++ (be 2 x.sellerLevy ++ be 2 x.buyerCommission ++ be 2 x.iceBoats ++ be 2 x.iceBuyers ++ be 1 x.netStep
                ++ be 1 x.captureTimeout ++ be 2 x.resolveWindow ++ be 1 x.reofferLimit ++ be 1 x.replyTimeout ++ be 1 x.missLimit
                ++ be 2 x.cyclePeriod ++ be 2 x.breakTime ++ be 2 x.floorSilence ++ be 2 x.gateIdle ++ be 2 x.iceWait
                ++ be 1 x.reserveLevel ++ be 1 x.lowMark ++ be 1 x.resumeMark ++ be 2 x.boardInterval ++ be 1 x.noticeLevel)
              ++ be 2 (i + 1))))
      ∧ (s.takes (readFrame src 2 body) → 1 ≤ i → i ≤ 30 → ∃ t, exec (.readStations src body) s = .next t
        ∧ (s.station i = none → s.answered t (readFrame src 2 body) .ok (be 2 i ++ [0] ++ be 2 (i + 1)))
        ∧ (∀ x, s.station i = some x →
            (∀ cfg ch, x.device = .weigh cfg ch → ∀ draft, draft = (match ch.state with
                | .capture d => be 2 d.boat ++ be 2 d.species ++ be 1 d.ring.num ++ be 1 d.m ++ be 2 d.n ++ be 1 d.ctype
                    ++ be 4 d.tare ++ be 4 d.deposit ++ be 1 d.count ++ be 4 d.netStep ++ be 4 d.deadline.tod
                    ++ be 2 d.deadline.day ++ be 4 d.accepted.tod ++ be 2 d.accepted.day
                | .idle => be 5 0 ++ ones 1 ++ be 3 0 ++ ones 8 ++ be 5 0 ++ ones 12
                | .offline => be 5 0 ++ ones 1 ++ be 3 0 ++ ones 8 ++ be 5 0 ++ ones 12) →
              s.answered t (readFrame src 2 body) .ok (be 2 i ++ [1]
                ++ (be 1 1 ++ markByte x.enabled ++ be 4 cfg.capacity ++ be 1 cfg.stability ++ be 1 cfg.band ++ be 3 0
                ++ be 1 (s.channelNo i) ++ [ch.state.byte, ch.tracker.state.byte] ++ be 2 ch.tracker.counter
                ++ (match ch.tracker.previous with | none => ones 4 | some g => beInt 4 g)
                ++ (match ch.tracker.held with
                    | none => ones 10
                    | some h => beInt 4 h.gross ++ be 4 h.at_.tod ++ be 2 h.at_.day)
                ++ draft ++ [x.live.byte] ++ be 1 x.misses ++ be 1 x.commands.length) ++ be 2 (i + 1)))
            ∧ (∀ cfg c, x.device = .chute cfg c → ∀ dispense, dispense = (match c.job with
                | some d => be 2 d.account ++ be 3 d.ordered ++ be 3 d.granted ++ be 3 d.price ++ be 1 d.hold ++ be 1 d.cls
                    ++ be 1 d.runLevel ++ be 4 d.requested.tod ++ be 2 d.requested.day ++ be 2 d.latchOrder
                    ++ markByte d.started ++ be 3 d.delivered ++ be 3 d.current
                    ++ [SuspendCause.byte d.suspendCause, PendingOutcome.byte d.pendingOutcome]
                    ++ be 4 d.deadline.tod ++ be 2 d.deadline.day
                | none => be 8 0 ++ ones 3 ++ be 3 0 ++ ones 15
                    ++ [Config.absentCode .suspendCause, Config.absentCode .pendingOutcome] ++ ones 6) →
              s.answered t (readFrame src 2 body) .ok (be 2 i ++ [1]
                ++ (be 1 2 ++ markByte x.enabled ++ be 6 0 ++ be 1 cfg.cls ++ be 1 cfg.runLevel ++ be 1 0
                ++ be 1 (s.chuteNo i) ++ [ChuteState.byte (c.job.map (fun d => d.state))] ++ be 1 c.tag
                ++ dispense ++ [x.live.byte] ++ be 1 x.misses ++ be 1 x.commands.length) ++ be 2 (i + 1)))
            ∧ (∀ dir g, x.device = .gate dir g → ∀ session, session = (match g.session with
                | some y => be 2 y.account ++ be 1 y.ctype ++ be 1 (match y.dir with | .into => 1 | .out => 2) ++ be 1 g.tag
                    ++ be 2 y.count ++ markByte y.clamped ++ be 4 y.opened.tod ++ be 2 y.opened.day ++ be 4 y.deadline.tod
                    ++ be 2 y.deadline.day
                | none => be 5 0 ++ ones 15) →
              s.answered t (readFrame src 2 body) .ok (be 2 i ++ [1]
                ++ (be 1 3 ++ markByte x.enabled ++ be 8 0 ++ be 1 (match dir with | .into => 1 | .out => 2 | .both => 3)
                ++ be 1 (s.gateNo i)
                ++ [if g.session = none then Config.code .gateState 0 else Config.code .gateState 1] ++ be 1 g.tag
                ++ session
                ++ (match g.report with | none => ones 3 | some y => markByte y.barrierOpen ++ be 2 y.count)
                ++ [x.live.byte] ++ be 1 x.misses ++ be 1 x.commands.length) ++ be 2 (i + 1)))
            ∧ (x.device = .icePlant →
              s.answered t (readFrame src 2 body) .ok (be 2 i ++ [1]
                ++ (be 1 4 ++ markByte x.enabled ++ be 9 0 ++ [x.live.byte] ++ be 1 x.misses ++ be 1 x.commands.length) ++ be 2 (i + 1)))))
      ∧ (s.takes (readFrame src 3 body) → 1 ≤ i → i ≤ 64 → ∃ t, exec (.readSpecies src body) s = .next t
        ∧ (s.species.find i = none → s.answered t (readFrame src 3 body) .ok (be 2 i ++ [0] ++ be 2 (i + 1)))
        ∧ (∀ x, s.species.find i = some x →
            s.answered t (readFrame src 3 body) .ok (be 2 i ++ [1]
              ++ (be 2 x.code ++ be 1 x.ring.num ++ be 1 x.profile ++ be 1 x.m ++ be 2 x.n)
              ++ be 2 (i + 1))))
      ∧ (s.takes (readFrame src 4 body) → 1 ≤ i → i ≤ 16 → ∃ t, exec (.readProfiles src body) s = .next t
        ∧ (s.profiles.find i = none → s.answered t (readFrame src 4 body) .ok (be 2 i ++ [0] ++ be 2 (i + 1)))
        ∧ (∀ x, s.profiles.find i = some x →
            s.answered t (readFrame src 4 body) .ok (be 2 i ++ [1]
              ++ (be 3 x.start ++ be 3 x.floor ++ be 2 x.step ++ be 2 x.interval ++ be 2 x.leadIn ++ be 2 x.resumePause
                ++ be 1 x.restartRaise ++ be 2 x.afterSale)
              ++ be 2 (i + 1))))
      ∧ (s.takes (readFrame src 5 body) → 1 ≤ i → i ≤ 8 → ∃ t, exec (.readCrates src body) s = .next t
        ∧ (s.crateTypes.find i = none → s.answered t (readFrame src 5 body) .ok (be 2 i ++ [0] ++ be 2 (i + 1)))
        ∧ (∀ x, s.crateTypes.find i = some x →
            s.answered t (readFrame src 5 body) .ok (be 2 i ++ [1]
              ++ (be 2 x.tare ++ be 2 x.deposit ++ be 2 x.pool ++ be 6 x.pool ++ be 6 x.store ++ be 6 x.shortfall
                ++ beInt 6 x.residue ++ beInt 6 (s.holdings i)
                ++ be 1 (s.stations.filter (fun y => match y.2.device with
                    | .gate _ g => g.session.any (fun z => z.ctype == i)
                    | _ => false)).length)
              ++ be 2 (i + 1))))
      ∧ (s.takes (readFrame src 6 body) → 1 ≤ i → i ≤ 64 → ∃ t, exec (.readKeypads src body) s = .next t
        ∧ (s.keypads.find i = none → s.answered t (readFrame src 6 body) .ok (be 2 i ++ [0] ++ be 2 (i + 1)))
        ∧ (∀ x, s.keypads.find i = some x →
            s.answered t (readFrame src 6 body) .ok (be 2 i ++ [1]
              ++ (markByte x.enabled ++ be 2 (x.account.getD 0)
                ++ be 1 (x.rings.a1.toNat + 2 * x.rings.a2.toNat + 4 * x.rings.a3.toNat + 8 * x.rings.a4.toNat))
              ++ be 2 (i + 1))))
      ∧ (s.takes (readFrame src 7 body) → i ≤ 511 → ∃ t, exec (.readAccounts src body) s = .next t
        ∧ (s.bank.accounts.find i = none → s.answered t (readFrame src 7 body) .ok (be 2 i ++ [0] ++ be 2 (i + 1)))
        ∧ (∀ x, s.bank.accounts.find i = some x →
            s.answered t (readFrame src 7 body) .ok (be 2 i ++ ([1] : List Byte)
              ++ (be 2 x.number ++ be 1 (match x.kind with | .boat => 1 | .buyer => 2 | .hall => 3) ++ optOnes 4 x.limit
                ++ optOnes 2 x.overdraft ++ beInt 4 x.balance ++ [x.state.byte, x.cause.byte] ++ be 6 x.held
                ++ (if x.kind = .hall then ones 6 else beInt 6 x.available)
                ++ beInt 4 (x.crateBalance 1) ++ beInt 4 (x.crateBalance 2) ++ beInt 4 (x.crateBalance 3)
                ++ beInt 4 (x.crateBalance 4) ++ beInt 4 (x.crateBalance 5) ++ beInt 4 (x.crateBalance 6)
                ++ beInt 4 (x.crateBalance 7) ++ beInt 4 (x.crateBalance 8)
                ++ be 6 x.totals.landed ++ be 6 x.totals.sold ++ be 6 x.totals.bought ++ be 6 x.totals.ice ++ be 6 x.totals.levies
                ++ be 1 (x.flags.n.toNat + 2 * x.flags.z.toNat + 4 * x.flags.v.toNat + 8 * x.flags.l.toNat)
                ++ (if i = 0 then beInt 6 s.bank.residue else ones 6))
              ++ be 2 (i + 1))))
      ∧ (s.takes (readFrame src 8 body) → 1 ≤ i → i ≤ 8 → (s.textLine i).length ≤ 32 →
        ∃ t, exec (.readBoardText src body) s = .next t
          ∧ s.answered t (readFrame src 8 body) .ok
              (be 2 i ++ [1] ++ (be 1 (s.textLine i).length ++ s.textLine i) ++ be 2 (i + 1)))
      ∧ (s.takes (readFrame src 9 body) → 1 ≤ i → ∃ t, exec (.readLots src body) s = .next t
        ∧ (∀ x, s.lot i = some x → ∀ place, place = (match x.state with
                | .queued => be 2 ((s.ring x.ring).queue.takeWhile (fun n => n != i)).length.succ ++ ones 1 ++ be 3 0
                | .onClock => be 2 0 ++ be 1 (s.ring x.ring).state.code
                    ++ be 3 (((s.ring x.ring).offer.map (fun o => o.price)).getD 0)) →
            i ∈ (s.ring x.ring).queue ∨ x.state = .onClock →
            s.answered t (readFrame src 9 body) .ok (be 2 i ++ [1]
              ++ (be 2 i ++ be 2 x.boat ++ be 2 x.species ++ be 1 x.ring.num ++ be 1 x.ctype ++ be 1 x.crates
                ++ be 1 x.remaining ++ beInt 4 x.gross ++ be 4 x.tare ++ be 4 x.allowance ++ be 4 x.net
                ++ be 4 x.netRemaining ++ be 4 x.soldNet ++ be 1 x.soldCrates ++ be 3 (x.reserve.getD 0)
                ++ be 1 x.offers ++ be 4 x.landed.tod ++ be 2 x.landed.day ++ be 1 x.station ++ [x.state.byte]
                ++ place)
              ++ be 2 (i + 1))))
      ∧ (s.takes (readFrame src 10 body) → 1 ≤ i → i ≤ 16 → ∃ t, exec (.readHolds src body) s = .next t
        ∧ (s.bank.holds[i - 1]? = none → s.answered t (readFrame src 10 body) .ok (be 2 i ++ [0] ++ be 2 (i + 1)))
        ∧ (∀ x, s.bank.holds[i - 1]? = some x →
            s.answered t (readFrame src 10 body) .ok (be 2 i ++ ([1] : List Byte)
              ++ (be 1 x.id ++ be 2 x.account ++ be 4 x.amount
                ++ be 1 (match x.owner with | .chute a => s.chuteNo a | .office => 7) ++ be 4 x.at_.tod ++ be 2 x.at_.day)
              ++ be 2 (i + 1)))))

/-! ## Account commands (section 1.5) -/

/-- R13, R14, R17, R18 and R11: STOP and OPEN of an account, PLACE HOLD and RELEASE HOLD: what each does, refuses
and answers, and that it touches no other account. The order of refusals is log 8, the result fields of a refusal
log 7. -/
def Obligations.AccountAndHoldCommands : Prop :=
  ∀ (src : Byte) (p : List Byte) (s : State),
    (p.length = 2 → s.takes (requestFrame src 0x24 p) →
      ∃ t, exec (.stopAccount src p) s = .next t
        ∧ (fieldAt p 0 2 = 0 → s.answered t (requestFrame src 0x24 p) .state [] ∧ { t with office := s.office } = s)
        ∧ (fieldAt p 0 2 ≠ 0 → s.account (fieldAt p 0 2) = none →
            s.answered t (requestFrame src 0x24 p) .notFound [] ∧ { t with office := s.office } = s)
        ∧ (∀ a, s.account (fieldAt p 0 2) = some a → fieldAt p 0 2 ≠ 0 →
            s.answered t (requestFrame src 0x24 p) .ok [AccountState.stopped.byte, StopCause.office.byte]
              ∧ t.account (fieldAt p 0 2) = some { a with state := .stopped, cause := .office }
              ∧ (∀ n, n ≠ fieldAt p 0 2 → t.account n = s.account n)
              ∧ { t.bank with accounts := s.bank.accounts } = s.bank
              ∧ { t with office := s.office, bank := s.bank } = s))
    ∧ (p.length = 2 → s.takes (requestFrame src 0x25 p) →
      ∃ t, exec (.openAccount src p) s = .next t
        ∧ (fieldAt p 0 2 = 0 → s.answered t (requestFrame src 0x25 p) .state [] ∧ { t with office := s.office } = s)
        ∧ (fieldAt p 0 2 ≠ 0 → s.account (fieldAt p 0 2) = none →
            s.answered t (requestFrame src 0x25 p) .notFound [] ∧ { t with office := s.office } = s)
        ∧ (∀ a, s.account (fieldAt p 0 2) = some a → fieldAt p 0 2 ≠ 0 → 0 ≤ a.available →
            s.answered t (requestFrame src 0x25 p) .ok
                ([AccountState.opened.byte, StopCause.none.byte] ++ beInt 6 a.available)
              ∧ t.account (fieldAt p 0 2) = some { a with state := .opened, cause := .none }
              ∧ (∀ n, n ≠ fieldAt p 0 2 → t.account n = s.account n)
              ∧ { t.bank with accounts := s.bank.accounts } = s.bank
              ∧ { t with office := s.office, bank := s.bank } = s)
        ∧ (∀ a, s.account (fieldAt p 0 2) = some a → fieldAt p 0 2 ≠ 0 → a.available < 0 →
            s.answered t (requestFrame src 0x25 p) .credit
                ([Config.absentCode .accountState, Config.absentCode .stopCause] ++ beInt 6 a.available)
              ∧ { t with office := s.office } = s))
    ∧ (p.length = 6 → s.takes (requestFrame src 0x28 p) →
      ∃ t, exec (.placeHold src p) s = .next t
        ∧ (fieldAt p 0 2 = 0 → s.answered t (requestFrame src 0x28 p) .state [] ∧ { t with office := s.office } = s)
        ∧ (fieldAt p 0 2 ≠ 0 → s.account (fieldAt p 0 2) = none →
            s.answered t (requestFrame src 0x28 p) .notFound [] ∧ { t with office := s.office } = s)
        ∧ (∀ a, s.account (fieldAt p 0 2) = some a → fieldAt p 0 2 ≠ 0 →
            (fieldAt p 2 4 = 0 ∨ 1000000000 < fieldAt p 2 4 →
              s.answered t (requestFrame src 0x28 p) .range [] ∧ { t with office := s.office } = s)
            ∧ (1 ≤ fieldAt p 2 4 → fieldAt p 2 4 ≤ 1000000000 →
                (16 ≤ s.bank.holds.length →
                  s.answered t (requestFrame src 0x28 p) .full [] ∧ { t with office := s.office } = s)
                ∧ (s.bank.holds.length < 16 → a.available < fieldAt p 2 4 →
                  s.answered t (requestFrame src 0x28 p) .credit [] ∧ { t with office := s.office } = s)
                ∧ (s.bank.holds.length < 16 → (fieldAt p 2 4 : Int) ≤ a.available →
                  s.answered t (requestFrame src 0x28 p) .ok
                      (be 1 s.newHoldId ++ beInt 6 (a.available - (fieldAt p 2 4 : Int)))
                    ∧ t.bank.holds = s.bank.holds ++ [{
                        id := s.newHoldId, account := fieldAt p 0 2, amount := fieldAt p 2 4, owner := .office, at_ := s.clock }]
                    ∧ (1 ≤ s.bank.nextHold → s.bank.nextHold ≤ 255 → 1 ≤ s.newHoldId ∧ s.newHoldId ≤ 255
                        ∧ (∀ h ∈ s.bank.holds, h.id ≠ s.newHoldId))
                    ∧ t.bank.nextHold = (if s.newHoldId < 255 then s.newHoldId + 1 else 1)
                    ∧ t.account (fieldAt p 0 2) = some { a with held := a.held + fieldAt p 2 4 }
                    ∧ (∀ n, n ≠ fieldAt p 0 2 → t.account n = s.account n) ∧ t.bank.residue = s.bank.residue
                    ∧ { t with office := s.office, bank := s.bank } = s))))
    ∧ (p.length = 1 → s.takes (requestFrame src 0x29 p) →
      ∃ t, exec (.releaseHold src p) s = .next t
        ∧ ((∀ h ∈ s.bank.holds, h.id ≠ fieldAt p 0 1) →
            s.answered t (requestFrame src 0x29 p) .notFound [] ∧ { t with office := s.office } = s)
        ∧ (∀ h, s.holdOf (fieldAt p 0 1) = some h →
            (h.owner ≠ .office →
              s.answered t (requestFrame src 0x29 p) .inUse [] ∧ { t with office := s.office } = s)
            ∧ (∀ a, s.account h.account = some a → h.owner = .office →
              s.answered t (requestFrame src 0x29 p) .ok (be 2 h.account ++ be 4 h.amount
                  ++ beInt 6 ({ a with held := a.held - h.amount } : Account).available)
                ∧ t.bank.holds = s.bank.holds.eraseP (fun x => x.id == fieldAt p 0 1)
                ∧ t.account h.account = some { a with held := a.held - h.amount }
                ∧ (∀ n, n ≠ h.account → t.account n = s.account n)
                ∧ t.bank.residue = s.bank.residue ∧ t.bank.nextHold = s.bank.nextHold
                ∧ { t with office := s.office, bank := s.bank } = s)))

/-- R15 and R16 with R5 to R9: TRANSFER moves the amount, sets both accounts' flags, stops the from account where it
is left short, and writes its record; SETTLE writes the totals and clears them. Both need a claim. The order of
refusals is log 8, the result fields of a refusal log 7. -/
def Obligations.TransferAndSettle : Prop :=
  ∀ (src : Byte) (p : List Byte) (s : State),
    (p.length = 8 → s.takes (requestFrame src 0x26 p) →
      ∃ t, exec (.transfer src p) s = .next t
        ∧ (s.account (fieldAt p 0 2) = none ∨ s.account (fieldAt p 2 2) = none →
            s.answered t (requestFrame src 0x26 p) .notFound [] ∧ { t with office := s.office } = s)
        ∧ (∀ a, s.account (fieldAt p 0 2) = some a → ∀ b, s.account (fieldAt p 2 2) = some b →
            (fieldAt p 4 4 = 0 ∨ 1000000000 < fieldAt p 4 4 ∨ fieldAt p 0 2 = fieldAt p 2 2 →
              s.answered t (requestFrame src 0x26 p) .range [] ∧ { t with office := s.office } = s)
            ∧ (1 ≤ fieldAt p 4 4 → fieldAt p 4 4 ≤ 1000000000 → fieldAt p 0 2 ≠ fieldAt p 2 2 →
                128 < s.queue.records.length + s.queue.owed + 1 →
                s.answered t (requestFrame src 0x26 p) .full []
                  ∧ t.latchAt 5 = (s.latchAt 5).occur s.clock (.account (fieldAt p 0 2)) none
                  ∧ { t with office := s.office, latches := s.latches } = s)
            ∧ (1 ≤ fieldAt p 4 4 → fieldAt p 4 4 ≤ 1000000000 → fieldAt p 0 2 ≠ fieldAt p 2 2 →
                s.queue.records.length + s.queue.owed + 1 ≤ 128 →
                ∃ x, t.account (fieldAt p 0 2) = some x ∧ ∃ y, t.account (fieldAt p 2 2) = some y
                  ∧ x.balance = clampBalance (a.balance - fieldAt p 4 4)
                  ∧ y.balance = clampBalance (b.balance + fieldAt p 4 4)
                  ∧ t.bank.residue = s.bank.residue + (a.balance - fieldAt p 4 4 - x.balance)
                      + (b.balance + fieldAt p 4 4 - y.balance)
                  ∧ x.flags = { n := decide (x.balance < 0), z := decide (x.balance = 0),
                                v := decide (x.balance ≠ a.balance - fieldAt p 4 4),
                                l := decide (x.kind ≠ .hall ∧ x.available < 0) }
                  ∧ y.flags = { n := decide (y.balance < 0), z := decide (y.balance = 0),
                                v := decide (y.balance ≠ b.balance + fieldAt p 4 4),
                                l := decide (y.kind ≠ .hall ∧ y.available < 0) }
                  ∧ (a.state = .opened → x.kind ≠ .hall → x.available < 0 → x.state = .stopped ∧ x.cause = .overlimit
                      ∧ t.latchAt 9 = (s.latchAt 9).occur s.clock (.account (fieldAt p 0 2)) none)
                  ∧ (a.state = .stopped ∨ x.kind = .hall ∨ 0 ≤ x.available → x.state = a.state ∧ x.cause = a.cause)
                  ∧ y.state = b.state ∧ y.cause = b.cause
                  ∧ { x with balance := a.balance, flags := a.flags, state := a.state, cause := a.cause } = a
                  ∧ { y with balance := b.balance, flags := b.flags } = b
                  ∧ (∀ n, n ≠ fieldAt p 0 2 → n ≠ fieldAt p 2 2 → t.account n = s.account n)
                  ∧ t.bank.holds = s.bank.holds
                  ∧ s.wrote t (.transfer (fieldAt p 0 2) (fieldAt p 2 2) (fieldAt p 4 4) x.flags y.flags)
                  ∧ t.queue.owed = s.queue.owed
                  ∧ s.answered t (requestFrame src 0x26 p) .ok (be 2 s.queue.next ++ beInt 4 x.balance
                      ++ beInt 4 y.balance ++ be 1 x.flags.byte ++ be 1 y.flags.byte)
                  ∧ { t with office := s.office, bank := s.bank, queue := s.queue, latches := s.latches,
                             choices := s.choices } = s)))
    ∧ (p.length = 2 → s.takes (requestFrame src 0x27 p) →
      ∃ t, exec (.settle src p) s = .next t
        ∧ (s.account (fieldAt p 0 2) = none →
            s.answered t (requestFrame src 0x27 p) .notFound [] ∧ { t with office := s.office } = s)
        ∧ (∀ a, s.account (fieldAt p 0 2) = some a →
            (128 < s.queue.records.length + s.queue.owed + 1 →
              s.answered t (requestFrame src 0x27 p) .full []
                ∧ t.latchAt 5 = (s.latchAt 5).occur s.clock (.account (fieldAt p 0 2)) none
                ∧ { t with office := s.office, latches := s.latches } = s)
            ∧ (s.queue.records.length + s.queue.owed + 1 ≤ 128 →
              s.answered t (requestFrame src 0x27 p) .ok (be 2 s.queue.next)
                ∧ t.account (fieldAt p 0 2) = some { a with
                    totals := { landed := 0, sold := 0, bought := 0, ice := 0, levies := 0 } }
                ∧ (∀ n, n ≠ fieldAt p 0 2 → t.account n = s.account n)
                ∧ { t.bank with accounts := s.bank.accounts } = s.bank
                ∧ s.wrote t (.settlement (fieldAt p 0 2) a.balance a.totals) ∧ t.queue.owed = s.queue.owed
                ∧ { t with office := s.office, bank := s.bank, queue := s.queue, latches := s.latches } = s)))

/-! ## Ring, lot, ice and pool commands (sections 3.8, 5.4, 6.6) -/

/-- R66 to R71 and R189: START, STOP, HOLD and RELEASE of a ring, each answered with the ring's fields (R50), in LOAD
too. A number outside 1 to 4 is judged before the operating state: log 8. A resolution that stands between its slots
at the ring ends before the command is served: log 17. The hold marks a ring sets are cleared as its board frame is
placed (R174), which the fall of the step may bring: log 29. Claims a STOP releases are told to the rings stalled
CLAIMS (R145); a ring that held none releases none. RELEASE of a ring with an offer asks for the claims missing (R55).
The result fields of a refusal are log 7. -/
def Obligations.RingCommands : Prop :=
  ∀ (src : Byte) (p : List Byte) (s : State), p.length = 1 →
    (s.takes (requestFrame src 0x2A p) → ∃ t, exec (.startRing src p) s = .next t
      ∧ (∀ r : RingNo, s.op = .load → fieldAt p 0 1 = r.num →
          s.answered t (requestFrame src 0x2A p) .state (s.ringBytes r) ∧ { t with office := s.office } = s)
      ∧ (fieldAt p 0 1 = 0 ∨ 4 < fieldAt p 0 1 →
          s.answered t (requestFrame src 0x2A p) .badIndex [] ∧ { t with office := s.office } = s)
      ∧ (∀ r : RingNo, s.op = .run → fieldAt p 0 1 = r.num → (s.ring r).midway = true →
          exec (.startRing src p) (s.finishResolution r) = .next t)
      ∧ (∀ r : RingNo, s.op = .run → fieldAt p 0 1 = r.num → (s.ring r).midway = false →
          ((s.ring r).state ≠ .idle → s.answered t (requestFrame src 0x2A p) .state (s.ringBytes r)
              ∧ { t with office := s.office } = s)
          ∧ ((s.ring r).state = .idle → s.answered t (requestFrame src 0x2A p) .ok (t.ringBytes r)
              ∧ Ring.sameButMarks { s.ring r with state := .waiting, stall := .none, told := false } (t.ring r)
              ∧ (∀ x : RingNo, x ≠ r → (s.ring x).sameButMarks (t.ring x))
              ∧ { t with office := s.office, rings := s.rings, boards := s.boards, floor := s.floor } = s)))
    ∧ (s.takes (requestFrame src 0x2B p) → ∃ t, exec (.stopRing src p) s = .next t
      ∧ (∀ r : RingNo, s.op = .load → fieldAt p 0 1 = r.num →
          s.answered t (requestFrame src 0x2B p) .state (s.ringBytes r) ∧ { t with office := s.office } = s)
      ∧ (fieldAt p 0 1 = 0 ∨ 4 < fieldAt p 0 1 →
          s.answered t (requestFrame src 0x2B p) .badIndex [] ∧ { t with office := s.office } = s)
      ∧ (∀ r : RingNo, s.op = .run → fieldAt p 0 1 = r.num → (s.ring r).midway = true →
          exec (.stopRing src p) (s.finishResolution r) = .next t)
      ∧ (∀ r : RingNo, s.op = .run → fieldAt p 0 1 = r.num → (s.ring r).midway = false →
          ((s.ring r).state = .idle ∨ (s.ring r).state = .resolving ∨ (s.ring r).state = .afterSale →
              s.answered t (requestFrame src 0x2B p) .state (s.ringBytes r) ∧ { t with office := s.office } = s)
          ∧ ((s.ring r).state = .waiting ∨ (s.ring r).state = .leadIn ∨ (s.ring r).state = .descending
                ∨ (s.ring r).state = .held →
              s.answered t (requestFrame src 0x2B p) .ok (t.ringBytes r)
                ∧ (t.ring r).state = .idle ∧ (t.ring r).offer = none ∧ (t.ring r).claims = 0
                ∧ (t.ring r).heldOffice = false ∧ (t.ring r).heldFloor = false ∧ (t.ring r).holdPending = false
                ∧ (t.ring r).stall = .none ∧ (t.ring r).timer = none
                ∧ (s.floorLine.cond ≠ .up ∨ s.floor.stage ≠ none → (t.ring r).setSeen = (s.ring r).setSeen
                    ∧ (t.ring r).clearSeen = (if (s.ring r).state = .held then true else (s.ring r).clearSeen))
                ∧ t.queue = { s.queue with owed := s.queue.owed - (s.ring r).claims }
                ∧ ((s.ring r).offer = none → (t.ring r).queue = (s.ring r).queue ∧ t.lotStore = s.lotStore)
                ∧ (∀ o, (s.ring r).offer = some o → (t.ring r).queue = o.lot :: (s.ring r).queue
                    ∧ t.lot o.lot = (s.lot o.lot).map (fun l => { l with state := .queued, offers := l.offers - 1 })
                    ∧ (∀ n, n ≠ o.lot → t.lot n = s.lot n)
                    ∧ t.lotStore.reserved = s.lotStore.reserved ∧ t.lotStore.next = s.lotStore.next)
                ∧ (∀ x : RingNo, x ≠ r → (s.ring x).sameButBoth (t.ring x))
                ∧ (∀ x : RingNo, x ≠ r → 0 < (s.ring r).claims → (s.ring x).state = .waiting →
                    (s.ring x).stall = .claims → (t.ring x).told = true)
                ∧ ((s.ring r).claims = 0 → ∀ x : RingNo, x ≠ r → (s.ring x).sameButMarks (t.ring x))
                ∧ { t with office := s.office, rings := s.rings, boards := s.boards, floor := s.floor,
                           lotStore := s.lotStore, queue := s.queue } = s)))
    ∧ (s.takes (requestFrame src 0x2C p) → ∃ t, exec (.hold src p) s = .next t
      ∧ (∀ r : RingNo, s.op = .load → fieldAt p 0 1 = r.num →
          s.answered t (requestFrame src 0x2C p) .state (s.ringBytes r) ∧ { t with office := s.office } = s)
      ∧ (fieldAt p 0 1 = 0 ∨ 4 < fieldAt p 0 1 →
          s.answered t (requestFrame src 0x2C p) .badIndex [] ∧ { t with office := s.office } = s)
      ∧ (∀ r : RingNo, s.op = .run → fieldAt p 0 1 = r.num → (s.ring r).midway = true →
          exec (.hold src p) (s.finishResolution r) = .next t)
      ∧ (∀ r : RingNo, s.op = .run → fieldAt p 0 1 = r.num → (s.ring r).midway = false →
          ((s.ring r).state = .idle → s.answered t (requestFrame src 0x2C p) .state (s.ringBytes r)
              ∧ { t with office := s.office } = s)
          ∧ ((s.ring r).state ≠ .idle → s.answered t (requestFrame src 0x2C p) .ok (t.ringBytes r)
              ∧ ((s.ring r).state = .resolving ∨ (s.ring r).state = .afterSale →
                  Ring.sameButMarks { s.ring r with holdPending := true } (t.ring r))
              ∧ ((s.ring r).state = .held → Ring.sameButMarks { s.ring r with heldOffice := true } (t.ring r))
              ∧ ((s.ring r).state = .waiting ∨ (s.ring r).state = .leadIn ∨ (s.ring r).state = .descending →
                  Ring.sameButMarks { s.ring r with state := .held, heldOffice := true, heldFloor := false,
                                                    stall := .none, told := false, timer := none } (t.ring r)
                    ∧ (s.floorLine.cond ≠ .up ∨ s.floor.stage ≠ none → (t.ring r).setSeen = true))
              ∧ (∀ x : RingNo, x ≠ r → (s.ring x).sameButMarks (t.ring x))
              ∧ { t with office := s.office, rings := s.rings, boards := s.boards, floor := s.floor } = s)))
    ∧ (s.takes (requestFrame src 0x2D p) → ∃ t, exec (.release src p) s = .next t
      ∧ (∀ r : RingNo, s.op = .load → fieldAt p 0 1 = r.num →
          s.answered t (requestFrame src 0x2D p) .state (s.ringBytes r) ∧ { t with office := s.office } = s)
      ∧ (fieldAt p 0 1 = 0 ∨ 4 < fieldAt p 0 1 →
          s.answered t (requestFrame src 0x2D p) .badIndex [] ∧ { t with office := s.office } = s)
      ∧ (∀ r : RingNo, s.op = .run → fieldAt p 0 1 = r.num → (s.ring r).midway = true →
          exec (.release src p) (s.finishResolution r) = .next t)
      ∧ (∀ r : RingNo, s.op = .run → fieldAt p 0 1 = r.num → (s.ring r).midway = false →
          ((s.ring r).state ≠ .held ∨ (s.ring r).heldOffice = false →
              ((s.ring r).holdPending = false → s.answered t (requestFrame src 0x2D p) .state (s.ringBytes r)
                ∧ { t with office := s.office } = s)
              ∧ ((s.ring r).holdPending = true → s.answered t (requestFrame src 0x2D p) .ok (t.ringBytes r)
                ∧ t.ring r = { s.ring r with holdPending := false } ∧ (∀ x : RingNo, x ≠ r → t.ring x = s.ring x)
                ∧ { t with office := s.office, rings := s.rings } = s))
          ∧ ((s.ring r).state = .held → (s.ring r).heldOffice = true →
              s.answered t (requestFrame src 0x2D p) .ok (t.ringBytes r)
                ∧ ((s.ring r).heldFloor = true → Ring.sameButMarks { s.ring r with heldOffice := false } (t.ring r)
                    ∧ t.queue = s.queue)
                ∧ ((s.ring r).heldFloor = false → (s.ring r).offer = none →
                    Ring.sameButMarks { s.ring r with state := .waiting, heldOffice := false, stall := .none,
                                                      told := false, timer := none } (t.ring r)
                      ∧ (s.floorLine.cond ≠ .up ∨ s.floor.stage ≠ none → (t.ring r).clearSeen = true)
                      ∧ t.queue = s.queue)
                ∧ (∀ o, (s.ring r).offer = some o → (s.ring r).heldFloor = false → s.floorLine.cond ≠ .up →
                    t.ring r = { s.ring r with heldOffice := false, heldFloor := true } ∧ t.queue = s.queue)
                ∧ (∀ o, (s.ring r).offer = some o → (s.ring r).heldFloor = false → s.floorLine.cond = .up →
                    (t.ring r).heldOffice = false ∧ (t.ring r).heldFloor = false ∧ (t.ring r).offer = some o
                      ∧ (s.floor.stage ≠ none → (t.ring r).clearSeen = true ∧ (t.ring r).setSeen = (s.ring r).setSeen)
                      ∧ s.toppedUp t r
                      ∧ (0 < o.profile.resumePause → (t.ring r).state = .leadIn
                          ∧ (t.ring r).timer = some { elapsed := 0, limit := o.profile.resumePause })
                      ∧ (o.profile.resumePause = 0 → (t.ring r).claims = 2 → (t.ring r).state = .descending
                          ∧ (t.ring r).timer = some { elapsed := 0, limit := o.profile.interval })
                      ∧ (o.profile.resumePause = 0 → (t.ring r).claims ≠ 2 → (t.ring r).state = .leadIn
                          ∧ (t.ring r).stall = .claims ∧ t.latchAt 10 = (s.latchAt 10).occur s.clock (.ring r.num) none
                          ∧ t.latchAt 5 = (s.latchAt 5).occur s.clock (.ring r.num) none))
                ∧ (∀ x : RingNo, x ≠ r → (s.ring x).sameButMarks (t.ring x))
                ∧ { t with office := s.office, rings := s.rings, boards := s.boards, floor := s.floor,
                           queue := s.queue, latches := s.latches } = s)))

/-- R72 to R74, R48 and R58: MOVE, WITHDRAW and SET RESERVE of a lot: what each does, refuses and answers. Each
works on a lot in state QUEUED alone. The order of refusals is log 8, the result fields of a refusal log 7. -/
def Obligations.LotCommands : Prop :=
  ∀ (src : Byte) (p : List Byte) (s : State),
    (p.length = 2 → s.takes (requestFrame src 0x2F p) → ∃ t, exec (.moveLot src p) s = .next t
      ∧ (s.lot (fieldAt p 0 2) = none → s.answered t (requestFrame src 0x2F p) .notFound []
          ∧ { t with office := s.office } = s)
      ∧ (∀ l, s.lot (fieldAt p 0 2) = some l →
          (l.state = .onClock → s.answered t (requestFrame src 0x2F p) .state [] ∧ { t with office := s.office } = s)
          ∧ (l.state = .queued → s.answered t (requestFrame src 0x2F p) .ok []
              ∧ (fieldAt p 0 2 ∈ (s.ring l.ring).queue →
                  (t.ring l.ring).queue = fieldAt p 0 2 :: (s.ring l.ring).queue.erase (fieldAt p 0 2))
              ∧ Ring.sameButTold { s.ring l.ring with queue := (t.ring l.ring).queue } (t.ring l.ring)
              ∧ ((s.ring l.ring).state = .waiting → (s.ring l.ring).stall = .profile →
                  (s.ring l.ring).queue.head? ≠ some (fieldAt p 0 2) → (t.ring l.ring).told = true)
              ∧ (∀ x : RingNo, x ≠ l.ring → t.ring x = s.ring x)
              ∧ { t with office := s.office, rings := s.rings } = s)))
    ∧ (p.length = 2 → s.takes (requestFrame src 0x2E p) → ∃ t, exec (.withdraw src p) s = .next t
      ∧ (s.op = .load → s.answered t (requestFrame src 0x2E p) .state [] ∧ { t with office := s.office } = s)
      ∧ (s.op = .run → s.lot (fieldAt p 0 2) = none → s.answered t (requestFrame src 0x2E p) .notFound []
          ∧ { t with office := s.office } = s)
      ∧ (∀ l, s.lot (fieldAt p 0 2) = some l → s.op = .run →
          (l.state = .onClock → s.answered t (requestFrame src 0x2E p) .state [] ∧ { t with office := s.office } = s)
          ∧ (l.state = .queued → 128 < s.queue.records.length + s.queue.owed + 1 →
              s.answered t (requestFrame src 0x2E p) .full []
                ∧ t.latchAt 5 = (s.latchAt 5).occur s.clock (.ring l.ring.num) none
                ∧ { t with office := s.office, latches := s.latches } = s)
          ∧ (l.state = .queued → s.queue.records.length + s.queue.owed + 1 ≤ 128 → Table.Sorted s.lotStore.lots →
              s.answered t (requestFrame src 0x2E p) .ok (be 2 s.queue.next)
                ∧ t.lot (fieldAt p 0 2) = none ∧ (∀ n, n ≠ fieldAt p 0 2 → t.lot n = s.lot n)
                ∧ t.lotStore.reserved = s.lotStore.reserved ∧ t.lotStore.next = s.lotStore.next
                ∧ (t.ring l.ring).queue = (s.ring l.ring).queue.erase (fieldAt p 0 2)
                ∧ (t.ring l.ring).state = (s.ring l.ring).state ∧ (t.ring l.ring).offer = (s.ring l.ring).offer
                ∧ (∀ x : RingNo, x ≠ l.ring → t.ring x = s.ring x)
                ∧ s.wrote t (.withdrawn (fieldAt p 0 2) l.boat l.remaining l.netRemaining .office)
                ∧ t.queue.owed = s.queue.owed ∧ t.bank.holds = s.bank.holds
                ∧ (∀ boat, s.account l.boat = some boat → ∀ hall, s.account 0 = some hall → l.boat ≠ 0 →
                    Table.Sorted boat.crates → inBounds (boat.crateBalance l.ctype + l.remaining) →
                    inBounds (boat.balance - (s.depositOf l.ctype * l.remaining : Nat)) →
                    inBounds (hall.balance + (s.depositOf l.ctype * l.remaining : Nat)) →
                    t.bank.residue = s.bank.residue
                      ∧ (∀ n, n ≠ 0 → n ≠ l.boat → t.account n = s.account n)
                      ∧ (∃ h, t.account 0 = some h
                          ∧ h.balance = hall.balance + (s.depositOf l.ctype * l.remaining : Nat))
                      ∧ ∃ b, t.account l.boat = some b
                        ∧ b.balance = boat.balance - (s.depositOf l.ctype * l.remaining : Nat)
                        ∧ b.crateBalance l.ctype = boat.crateBalance l.ctype + l.remaining
                        ∧ b.held = boat.held ∧ b.totals = boat.totals
                        ∧ b.state = (if boat.state = .opened ∧ b.kind ≠ .hall ∧ b.available < 0 then .stopped
                            else boat.state)
                        ∧ b.cause = (if boat.state = .opened ∧ b.kind ≠ .hall ∧ b.available < 0 then .overlimit
                            else boat.cause))
                ∧ { t with office := s.office, rings := s.rings, lotStore := s.lotStore, bank := s.bank,
                           crateTypes := s.crateTypes, queue := s.queue, latches := s.latches,
                           choices := s.choices } = s)))
    ∧ (p.length = 5 → s.takes (requestFrame src 0x30 p) → ∃ t, exec (.setReserve src p) s = .next t
      ∧ (s.lot (fieldAt p 0 2) = none → s.answered t (requestFrame src 0x30 p) .notFound []
          ∧ { t with office := s.office } = s)
      ∧ (∀ l, s.lot (fieldAt p 0 2) = some l →
          (99999 < fieldAt p 2 3 → s.answered t (requestFrame src 0x30 p) .range [] ∧ { t with office := s.office } = s)
          ∧ (fieldAt p 2 3 ≤ 99999 → l.state = .onClock →
              s.answered t (requestFrame src 0x30 p) .state [] ∧ { t with office := s.office } = s)
          ∧ (fieldAt p 2 3 ≤ 99999 → l.state = .queued →
              s.answered t (requestFrame src 0x30 p) .ok []
                ∧ t.lot (fieldAt p 0 2) = some { l with
                    reserve := if fieldAt p 2 3 = 0 then none else some (fieldAt p 2 3) }
                ∧ (∀ n, n ≠ fieldAt p 0 2 → t.lot n = s.lot n)
                ∧ t.lotStore.reserved = s.lotStore.reserved ∧ t.lotStore.next = s.lotStore.next
                ∧ { t with office := s.office, lotStore := s.lotStore } = s)))

/-- R112, R105 and R136 to R138: SET FLOOR with the pre-emption it may bring, CANCEL REQUEST, POOL ADJUST and
STOCKTAKE: what each does, refuses and answers. The order of refusals is log 8, the result fields of a refusal log 7,
the code of the screw state log 6, and that the chute it serves follows in a second byte log 32. -/
def Obligations.IceAndPoolCommands : Prop :=
  ∀ (src : Byte) (p : List Byte) (s : State),
    (p.length = 1 → s.takes (requestFrame src 0x31 p) → ∃ t, exec (.setFloor src p) s = .next t
      ∧ (7 < fieldAt p 0 1 → s.answered t (requestFrame src 0x31 p) .range s.iceBytes
          ∧ { t with office := s.office } = s)
      ∧ (fieldAt p 0 1 ≤ 7 → s.answered t (requestFrame src 0x31 p) .ok t.iceBytes
          ∧ t.ice.officeFloor = fieldAt p 0 1
          ∧ { t.ice with officeFloor := s.ice.officeFloor, screw := s.ice.screw } = s.ice
          ∧ { t with office := s.office, ice := s.ice, stations := s.stations, latches := s.latches } = s
          ∧ (s.ice.screw.served = none → t.ice.screw = s.ice.screw ∧ t.stations = s.stations ∧ t.latches = s.latches)
          ∧ (∀ a, s.ice.screw = .running a → ∀ d, s.jobAt a = some d → ∀ cfg c, s.chuteAt a = some (cfg, c) →
              d.state = .running → s.poller.state = .polling →
              (s.ice.latch.any (fun b => (s.jobAt b).any (fun e => decide (max d.runLevel t.ice.effFloor < e.cls)))
                  = true →
                t.ice.screw = .switching a
                  ∧ t.jobAt a = some { d with state := .ending, pendingOutcome := some (.suspend .preempt) }
                  ∧ s.joined t a (.stop c.tag))
              ∧ (s.ice.latch.any (fun b => (s.jobAt b).any (fun e => decide (max d.runLevel t.ice.effFloor < e.cls)))
                  = false →
                t.ice.screw = .running a ∧ t.stations = s.stations ∧ t.latches = s.latches))))
    ∧ (p.length = 1 → s.takes (requestFrame src 0x32 p) → ∃ t, exec (.cancelRequest src p) s = .next t
      ∧ (fieldAt p 0 1 = 0 ∨ 6 < fieldAt p 0 1 → s.answered t (requestFrame src 0x32 p) .badIndex (s.iceBytes ++ be 2 0)
          ∧ { t with office := s.office } = s)
      ∧ (1 ≤ fieldAt p 0 1 → fieldAt p 0 1 ≤ 6 → s.chuteAddr (fieldAt p 0 1) = none →
          s.answered t (requestFrame src 0x32 p) .notFound (s.iceBytes ++ be 2 0) ∧ { t with office := s.office } = s)
      ∧ (∀ a, s.chuteAddr (fieldAt p 0 1) = some a → 1 ≤ fieldAt p 0 1 → fieldAt p 0 1 ≤ 6 →
          (s.jobAt a = none → s.answered t (requestFrame src 0x32 p) .state (s.iceBytes ++ be 2 0)
              ∧ { t with office := s.office } = s)
          ∧ (∀ d, s.jobAt a = some d →
              (d.state ≠ .requested → s.answered t (requestFrame src 0x32 p) .state (s.iceBytes ++ be 2 0)
                ∧ { t with office := s.office } = s)
              ∧ (d.state = .requested →
                s.answered t (requestFrame src 0x32 p) .ok (t.iceBytes ++ be 2 s.queue.next)
                  ∧ s.dispenseEnded { t with office := s.office } a d 0 .cancelled
                  ∧ s.joined t a (.answerEnded .cancelled 0)))))
    ∧ (p.length = 5 → s.takes (requestFrame src 0x33 p) → ∃ t, exec (.poolAdjust src p) s = .next t
      ∧ (fieldAt p 0 1 = 0 ∨ 8 < fieldAt p 0 1 →
          s.answered t (requestFrame src 0x33 p) .badIndex [] ∧ { t with office := s.office } = s)
      ∧ (1 ≤ fieldAt p 0 1 → fieldAt p 0 1 ≤ 8 → s.crateTypes.find (fieldAt p 0 1) = none →
          s.answered t (requestFrame src 0x33 p) .notFound [] ∧ { t with office := s.office } = s)
      ∧ (∀ c, s.crateTypes.find (fieldAt p 0 1) = some c → 1 ≤ fieldAt p 0 1 → fieldAt p 0 1 ≤ 8 →
          (signedAt p 1 4 = 0 ∨ signedAt p 1 4 < -30000 ∨ 30000 < signedAt p 1 4
                ∨ (c.store : Int) + signedAt p 1 4 < 0 ∨ (c.pool : Int) + signedAt p 1 4 < 0
                ∨ 1000000 < (c.pool : Int) + signedAt p 1 4 →
              s.answered t (requestFrame src 0x33 p) .range (s.poolBytes (fieldAt p 0 1) 0)
                ∧ { t with office := s.office } = s)
          ∧ (signedAt p 1 4 ≠ 0 → -30000 ≤ signedAt p 1 4 → signedAt p 1 4 ≤ 30000 →
              0 ≤ (c.store : Int) + signedAt p 1 4 → 0 ≤ (c.pool : Int) + signedAt p 1 4 →
              (c.pool : Int) + signedAt p 1 4 ≤ 1000000 →
              (128 < s.queue.records.length + s.queue.owed + 1 →
                s.answered t (requestFrame src 0x33 p) .full (s.poolBytes (fieldAt p 0 1) 0)
                  ∧ t.latchAt 5 = (s.latchAt 5).occur s.clock (.type (fieldAt p 0 1)) none
                  ∧ { t with office := s.office, latches := s.latches } = s)
              ∧ (s.queue.records.length + s.queue.owed + 1 ≤ 128 →
                (c.store : Int) + signedAt p 1 4 ≤ 2000000000 →
                s.answered t (requestFrame src 0x33 p) .ok (t.poolBytes (fieldAt p 0 1) s.queue.next)
                  ∧ t.crateTypes.find (fieldAt p 0 1) = some { c with
                      pool := ((c.pool : Int) + signedAt p 1 4).toNat, store := ((c.store : Int) + signedAt p 1 4).toNat }
                  ∧ (∀ k, k ≠ fieldAt p 0 1 → t.crateTypes.find k = s.crateTypes.find k)
                  ∧ s.wrote t (.pool (fieldAt p 0 1) ((c.pool : Int) + signedAt p 1 4).toNat
                      ((c.store : Int) + signedAt p 1 4).toNat c.shortfall .adjust)
                  ∧ t.queue.owed = s.queue.owed
                  ∧ { t with office := s.office, crateTypes := s.crateTypes, queue := s.queue,
                             latches := s.latches } = s))))
    ∧ (p.length = 5 → s.takes (requestFrame src 0x34 p) → ∃ t, exec (.stocktake src p) s = .next t
      ∧ (fieldAt p 0 1 = 0 ∨ 8 < fieldAt p 0 1 →
          s.answered t (requestFrame src 0x34 p) .badIndex [] ∧ { t with office := s.office } = s)
      ∧ (1 ≤ fieldAt p 0 1 → fieldAt p 0 1 ≤ 8 → s.crateTypes.find (fieldAt p 0 1) = none →
          s.answered t (requestFrame src 0x34 p) .notFound [] ∧ { t with office := s.office } = s)
      ∧ (∀ c, s.crateTypes.find (fieldAt p 0 1) = some c → 1 ≤ fieldAt p 0 1 → fieldAt p 0 1 ≤ 8 →
          ((1000000 : Int) < fieldAt p 1 4 ∨ (fieldAt p 1 4 : Int) + s.holdings (fieldAt p 0 1) < 0
                ∨ 1000000 < (fieldAt p 1 4 : Int) + s.holdings (fieldAt p 0 1) →
              s.answered t (requestFrame src 0x34 p) .range (s.poolBytes (fieldAt p 0 1) 0)
                ∧ { t with office := s.office } = s)
          ∧ ((fieldAt p 1 4 : Int) ≤ 1000000 → 0 ≤ (fieldAt p 1 4 : Int) + s.holdings (fieldAt p 0 1) →
              (fieldAt p 1 4 : Int) + s.holdings (fieldAt p 0 1) ≤ 1000000 →
              (s.openSessions (fieldAt p 0 1) ≠ 0 →
                s.answered t (requestFrame src 0x34 p) .inUse (s.poolBytes (fieldAt p 0 1) 0)
                  ∧ { t with office := s.office } = s)
              ∧ (s.openSessions (fieldAt p 0 1) = 0 → 128 < s.queue.records.length + s.queue.owed + 1 →
                s.answered t (requestFrame src 0x34 p) .full (s.poolBytes (fieldAt p 0 1) 0)
                  ∧ t.latchAt 5 = (s.latchAt 5).occur s.clock (.type (fieldAt p 0 1)) none
                  ∧ { t with office := s.office, latches := s.latches } = s)
              ∧ (s.openSessions (fieldAt p 0 1) = 0 → s.queue.records.length + s.queue.owed + 1 ≤ 128 →
                s.answered t (requestFrame src 0x34 p) .ok (t.poolBytes (fieldAt p 0 1) s.queue.next)
                  ∧ t.crateTypes.find (fieldAt p 0 1) = some { c with
                      pool := ((fieldAt p 1 4 : Int) + s.holdings (fieldAt p 0 1)).toNat, store := fieldAt p 1 4,
                      shortfall := 0, residue := 0 }
                  ∧ (∀ k, k ≠ fieldAt p 0 1 → t.crateTypes.find k = s.crateTypes.find k)
                  ∧ s.wrote t (.pool (fieldAt p 0 1) ((fieldAt p 1 4 : Int) + s.holdings (fieldAt p 0 1)).toNat
                      (fieldAt p 1 4) 0 .stocktake)
                  ∧ t.queue.owed = s.queue.owed
                  ∧ { t with office := s.office, crateTypes := s.crateTypes, queue := s.queue,
                             latches := s.latches } = s))))

/-! ## Collection, poller, counters, board text, notices, time and other frames -/

/-- R147, R145, R164, R154, R175 and R176: COLLECT gives and removes the oldest records, as many as asked for and as
fit 109 bytes; RESUME POLL, CLEAR COUNTERS and SHOW. The result fields of a refusal, and the floor condition of a port
that has none, are log 7 and log 6. That a session's idle deadline moves at RESUME POLL is log 36. SHOW's response is
given before the transmitter's decision: log 33. -/
def Obligations.CollectResumeClearShow : Prop :=
  ∀ (src : Byte) (p : List Byte) (s : State),
    (p.length = 1 → s.takes (requestFrame src 0x35 p) → ∃ t, exec (.collect src p) s = .next t
      ∧ (fieldAt p 0 1 = 0 ∨ 4 < fieldAt p 0 1 →
          s.answered t (requestFrame src 0x35 p) .range [] ∧ { t with office := s.office } = s)
      ∧ (1 ≤ fieldAt p 0 1 → fieldAt p 0 1 ≤ 4 →
          (∃ k, k ≤ 4 ∧ k ≤ fieldAt p 0 1 ∧ k ≤ s.queue.records.length
            ∧ ((s.queue.records.take k).flatMap Record.bytes).length ≤ 109
            ∧ (k < fieldAt p 0 1 → k < s.queue.records.length →
                109 < ((s.queue.records.take (k + 1)).flatMap Record.bytes).length)
            ∧ t.queue = { s.queue with records := s.queue.records.drop k }
            ∧ s.answered t (requestFrame src 0x35 p) .ok ((s.queue.records.take k).flatMap Record.bytes
                ++ be 2 (s.queue.records.length - k) ++ be 2 s.queue.owed ++ be 2 s.queue.next))
          ∧ (∀ r : RingNo, (s.ring r).sameButTold (t.ring r)
              ∧ (t.queue ≠ s.queue → (s.ring r).state = .waiting → (s.ring r).stall = .claims → (t.ring r).told = true))
          ∧ (t.queue = s.queue → t.rings = s.rings)
          ∧ { t with office := s.office, queue := s.queue, rings := s.rings } = s))
    ∧ (p.length = 0 → s.takes (requestFrame src 0x36 p) → ∃ t, exec (.resumePoll src p) s = .next t
      ∧ (s.poller.state ≠ .listen → s.answered t (requestFrame src 0x36 p) .state [] ∧ { t with office := s.office } = s)
      ∧ (s.poller.state = .listen → s.answered t (requestFrame src 0x36 p) .ok []
          ∧ t.poller.state = .polling ∧ t.poller.cycleTimer = some { elapsed := 0, limit := s.par.cyclePeriod }
          ∧ t.poller.cycle = (if s.nextEnabled 0 = none then none else some true)
          ∧ (s.nextEnabled 0 = none → t.poller.poll = none ∧ t.quay.onLine = s.quay.onLine
              ∧ t.quay.stage = s.quay.stage)
          ∧ (∀ a, s.nextEnabled 0 = some a → s.pollPlaced t 0 a true)
          ∧ (∀ a dir g, s.gateAt a = some (dir, g) → ∃ x, t.gateAt a = some x ∧ x.2 = { g with
              session := g.session.map (fun y => { y with deadline := s.clock.later (s.par.gateIdle * 1000),
                                                          idle := { elapsed := 0, limit := s.par.gateIdle * 1000 } }) })
          ∧ (∀ a cfg ch, s.weighAt a = some (cfg, ch) → ∃ x, t.weighAt a = some x ∧ x.1 = cfg ∧ x.2.state = ch.state
              ∧ x.2.tracker = { state := .moving, counter := 0, previous := none, held := none })))
    ∧ (p.length = 1 → s.takes (requestFrame src 0x37 p) → ∃ t, exec (.clearCounters src p) s = .next t
      ∧ (fieldAt p 0 1 = 0 ∨ 3 < fieldAt p 0 1 →
          s.answered t (requestFrame src 0x37 p) .badIndex [] ∧ { t with office := s.office } = s)
      ∧ (fieldAt p 0 1 = 1 →
          s.answered t (requestFrame src 0x37 p) .ok
              (s.quay.counterBytes ++ [Config.absentCode .floorCondition])
            ∧ t.quay = { s.quay with cntF := 0, cntC := 0, cntL := 0, cntO := 0, cntB := 0 }
            ∧ { t with office := s.office, quay := s.quay } = s)
      ∧ (fieldAt p 0 1 = 2 →
          s.answered t (requestFrame src 0x37 p) .ok (s.floor.counterBytes ++ [s.floorLine.cond.byte])
            ∧ t.floor = { s.floor with cntF := 0, cntC := 0, cntL := 0, cntO := 0, cntB := 0 }
            ∧ { t with office := s.office, floor := s.floor } = s)
      ∧ (fieldAt p 0 1 = 3 →
          t.office = Port.place { s.office with rx := s.office.rx.drop 1, cntF := 0, cntC := 0, cntL := 0, cntO := 0,
                                                cntB := 0 }
              (s.responseFrame src 0x37 .ok (s.office.counterBytes ++ [Config.absentCode .floorCondition]))
            ∧ { t with office := s.office } = s))
    ∧ (p.length = 1 → s.takes (requestFrame src 0x38 p) → ∃ t, exec (.showLines src p) s = .next t
      ∧ (fieldAt p 0 1 = 0 → s.answered t (requestFrame src 0x38 p) .range [] ∧ { t with office := s.office } = s)
      ∧ (∀ lines, lines = [1, 2, 3, 4, 5, 6, 7, 8].filter (fun n =>
            s.boards.showing.contains n || (fieldAt p 0 1).testBit (n - 1)) → fieldAt p 0 1 ≠ 0 →
          s.answered t (requestFrame src 0x38 p) .ok (be 1 (lines.map (fun n => 2 ^ (n - 1))).sum)
            ∧ (s.floorLine.cond ≠ .up ∨ s.floor.stage ≠ none →
                t.boards = { s.boards with showing := lines } ∧ t.floor = s.floor ∧ t.rings = s.rings)
            ∧ (s.floorLine.cond = .up → s.floor.stage = none → s.floor.onLine = none → s.boards.answers = [] →
                (∀ r : RingNo, s.boardDue r = false) →
                ∃ n, lines.head? = some n ∧ t.floor.onLine = some (textFrame n (s.textLine n))
                  ∧ n ∉ t.boards.showing)
            ∧ t.boards.text = s.boards.text ∧ (∀ r : RingNo, (s.ring r).sameButMarks (t.ring r))
            ∧ { t with office := s.office, boards := s.boards, floor := s.floor, rings := s.rings } = s))

/-- R159 and R155: a command placed for a station: the room and the displacement rules of its list, OUTBOUND_DROPPED,
nothing for a disabled station. R195, R196 and R198 with R192 to R194: NOTICE READ gives latches as they stand, NOTICE CLEAR gives and clears
them, TIME SET gives the old and the new hall time and sets it. R190, R161, R180, R182, R188, R49 and R202: a frame
to a quay address is relayed or refused; an unknown kind, an address above 30, and a LOAD or READ of no table are
refused and change nothing. The index given with BAD_TABLE is log 7, the order of refusals log 8, the bytes of an absent
subject log 14. -/
def Obligations.NoticeTimeAndOtherFrames : Prop :=
  (∀ (a : Nat) (c : QuayCommand) (s : State),
    (s.station a = none → s.placeCommand a c = s)
    ∧ (∀ st, s.station a = some st → st.enabled = false → s.placeCommand a c = s)
    ∧ (∀ st, s.station a = some st → st.enabled = true → ∀ l, l = ((s.placeCommand a c).station a).map (·.commands) →
        (st.commands.length < 2 → l = some (st.commands ++ [c]) ∧ (s.placeCommand a c).latches = s.latches)
        ∧ (∀ x y, st.commands = [x, y] →
            (x.isStop = false → l = some [y, c])
            ∧ (x.isStop = true → y.isStop = false → l = some [x, c])
            ∧ (x.isStop = true → y.isStop = true → c.isStop = false → l = some [x, y])
            ∧ (x.isStop = true → y.isStop = true → c.isStop = true → l = some [y, c])
            ∧ (s.placeCommand a c).latchAt 16 = (s.latchAt 16).occur s.clock (.station a) (some .quayDropped)
            ∧ (∀ n, n ≠ 16 → (s.placeCommand a c).latchAt n = s.latchAt n))
        ∧ (∀ st', (s.placeCommand a c).station a = some st' →
            { st' with commands := st.commands, carried := st.carried } = st
              ∧ (st.commands.length < 2 → st'.carried = st.carried)
              ∧ (∀ x y, st.commands = [x, y] →
                  st'.carried = (st.carried && x.isStop && !(y.isStop && c.isStop)))))
    ∧ (∀ b, b ≠ a → (s.placeCommand a c).station b = s.station b)
    ∧ { s.placeCommand a c with stations := s.stations, latches := s.latches } = s)
  ∧ (∀ (src : Byte) (p : List Byte) (s : State),
    (p.length = 2 → s.takes (requestFrame src 0x39 p) → ∃ t, exec (.noticeRead src p) s = .next t
      ∧ { t with office := s.office } = s
      ∧ (fieldAt p 0 1 = 0 ∨ 16 < fieldAt p 0 1 → s.answered t (requestFrame src 0x39 p) .badIndex [])
      ∧ (1 ≤ fieldAt p 0 1 → fieldAt p 0 1 ≤ 16 →
          (fieldAt p 1 1 = 0 ∨ 7 < fieldAt p 1 1 → s.answered t (requestFrame src 0x39 p) .range [])
          ∧ (1 ≤ fieldAt p 1 1 → fieldAt p 1 1 ≤ 7 →
              s.answered t (requestFrame src 0x39 p) .ok
                (((List.range 17).filter (fun n => decide (fieldAt p 0 1 ≤ n ∧ n < fieldAt p 0 1 + fieldAt p 1 1))).flatMap
                    (fun n => be 1 n ++ be 1 (latchPriority n) ++ [if (s.latchAt n).pending then 1 else 0]
                      ++ be 1 (s.latchAt n).count ++ Subject.bytes (s.latchAt n).subject
                      ++ optStamp (s.latchAt n).time ++ be 1 (Latch16Cause.code (s.latchAt n).cause))
                  ++ be 1 s.noticeLevel ++ be 4 s.clock.tod ++ be 2 s.clock.day))))
    ∧ (p.length = 2 → s.takes (requestFrame src 0x3A p) → ∃ t, exec (.noticeClear src p) s = .next t
      ∧ (∀ set, set = (List.range 17).filter (fun n => decide (1 ≤ n) && (fieldAt p 0 2).testBit (n - 1)) →
          (set = [] ∨ 8 < set.length →
              s.answered t (requestFrame src 0x3A p) .range [] ∧ { t with office := s.office } = s)
          ∧ (set ≠ [] → set.length ≤ 8 → Table.Sorted s.latches →
              s.answered t (requestFrame src 0x3A p) .ok (set.flatMap (fun n =>
                  be 1 n ++ be 1 (latchPriority n) ++ [if (s.latchAt n).pending then 1 else 0]
                    ++ be 1 (s.latchAt n).count ++ Subject.bytes (s.latchAt n).subject ++ optStamp (s.latchAt n).time
                    ++ be 1 (Latch16Cause.code (s.latchAt n).cause)))
                ∧ (∀ n, n ∈ set → t.latchAt n = Latch.clear) ∧ (∀ n, n ∉ set → t.latchAt n = s.latchAt n)
                ∧ { t with office := s.office, latches := s.latches } = s)))
    ∧ (p.length = 6 → s.takes (requestFrame src 0x3B p) → ∃ t, exec (.timeSet src p) s = .next t
      ∧ (86399999 < fieldAt p 0 4 → s.answered t (requestFrame src 0x3B p) .range [] ∧ { t with office := s.office } = s)
      ∧ (fieldAt p 0 4 ≤ 86399999 →
          s.answered t (requestFrame src 0x3B p) .ok
              (be 4 s.clock.tod ++ be 2 s.clock.day ++ be 4 (fieldAt p 0 4) ++ be 2 (fieldAt p 4 2))
            ∧ t.clock = { tod := fieldAt p 0 4, day := fieldAt p 4 2 }
            ∧ { t with office := s.office, clock := s.clock } = s)))
  ∧ (∀ (f : Frame) (s : State), s.takes f →
    (1 ≤ f.dst.toNat → f.dst.toNat ≤ 30 → ∃ t, exec (.relay f) s = .next t
      ∧ (118 < f.payload.length → s.answered t f .range [] ∧ { t with office := s.office } = s)
      ∧ (f.payload.length ≤ 118 →
          (s.station f.dst.toNat = none → s.answered t f .notFound [] ∧ { t with office := s.office } = s)
          ∧ (∀ st, s.station f.dst.toNat = some st →
              (s.poller.state ≠ .polling ∨ st.enabled = false →
                s.answered t f .state [] ∧ { t with office := s.office } = s)
              ∧ (s.poller.state = .polling → st.enabled = true →
                s.answered t f .ok [] ∧ s.joined t f.dst.toNat (.relay f.kind f.payload)
                  ∧ { t with office := s.office } = s.placeCommand f.dst.toNat (.relay f.kind f.payload)))))
    ∧ (f.dst = 0 → f.kind.toNat < 0x20 ∨ 0x3B < f.kind.toNat → ∃ t, exec (.unknownRequest f) s = .next t
        ∧ s.answered t f .unknownRequest [] ∧ { t with office := s.office } = s)
    ∧ (30 < f.dst.toNat → ∃ t, exec (.badDestination f) s = .next t
        ∧ s.answered t f .badIndex [] ∧ { t with office := s.office } = s)
    ∧ (∀ (src : Byte) (p : List Byte), f = requestFrame src 0x22 p →
        (∀ b, p.head? = some b → b = 0 ∨ 8 < b.toNat) → ∃ t, exec (.loadNotLoadable src p) s = .next t
        ∧ { t with office := s.office } = s
        ∧ (p.length < 3 → s.answered t f .range [])
        ∧ (3 ≤ p.length → s.answered t f .badTable (be 2 (fieldAt p 1 2))))
    ∧ (∀ (src : Byte) (p : List Byte), f = requestFrame src 0x23 p →
        (∀ b, p.head? = some b → b = 0 ∨ 10 < b.toNat) → ∃ t, exec (.readBadTable src p) s = .next t
        ∧ { t with office := s.office } = s
        ∧ (p.length = 4 → s.answered t f .badTable []) ∧ (p.length ≠ 4 → s.answered t f .range [])))

end
end

