-- ==== Sys2Proof/Laws/State.lean ====
section
/-! SUPPORT. One lemma per field per update of the state, true by rfl, so that no proof unfolds a record update. -/

namespace Sys2Proof.Machine

/-! ## setRing -/

@[simp] theorem State.setRing_pending (s : State) (r : RingNo) (x : Ring) : (s.setRing r x).pending = s.pending := rfl
@[simp] theorem State.setRing_choices (s : State) (r : RingNo) (x : Ring) : (s.setRing r x).choices = s.choices := rfl
@[simp] theorem State.setRing_clock (s : State) (r : RingNo) (x : Ring) : (s.setRing r x).clock = s.clock := rfl
@[simp] theorem State.setRing_op (s : State) (r : RingNo) (x : Ring) : (s.setRing r x).op = s.op := rfl
@[simp] theorem State.setRing_hall (s : State) (r : RingNo) (x : Ring) : (s.setRing r x).hall = s.hall := rfl
@[simp] theorem State.setRing_noticeLevel (s : State) (r : RingNo) (x : Ring) : (s.setRing r x).noticeLevel = s.noticeLevel := rfl
@[simp] theorem State.setRing_latches (s : State) (r : RingNo) (x : Ring) : (s.setRing r x).latches = s.latches := rfl
@[simp] theorem State.setRing_bank (s : State) (r : RingNo) (x : Ring) : (s.setRing r x).bank = s.bank := rfl
@[simp] theorem State.setRing_queue (s : State) (r : RingNo) (x : Ring) : (s.setRing r x).queue = s.queue := rfl
@[simp] theorem State.setRing_lotStore (s : State) (r : RingNo) (x : Ring) : (s.setRing r x).lotStore = s.lotStore := rfl
@[simp] theorem State.setRing_rings (s : State) (r : RingNo) (x : Ring) : (s.setRing r x).rings = s.rings.set r x := rfl
@[simp] theorem State.setRing_species (s : State) (r : RingNo) (x : Ring) : (s.setRing r x).species = s.species := rfl
@[simp] theorem State.setRing_profiles (s : State) (r : RingNo) (x : Ring) : (s.setRing r x).profiles = s.profiles := rfl
@[simp] theorem State.setRing_crateTypes (s : State) (r : RingNo) (x : Ring) : (s.setRing r x).crateTypes = s.crateTypes := rfl
@[simp] theorem State.setRing_keypads (s : State) (r : RingNo) (x : Ring) : (s.setRing r x).keypads = s.keypads := rfl
@[simp] theorem State.setRing_stations (s : State) (r : RingNo) (x : Ring) : (s.setRing r x).stations = s.stations := rfl
@[simp] theorem State.setRing_ice (s : State) (r : RingNo) (x : Ring) : (s.setRing r x).ice = s.ice := rfl
@[simp] theorem State.setRing_poller (s : State) (r : RingNo) (x : Ring) : (s.setRing r x).poller = s.poller := rfl
@[simp] theorem State.setRing_quay (s : State) (r : RingNo) (x : Ring) : (s.setRing r x).quay = s.quay := rfl
@[simp] theorem State.setRing_floor (s : State) (r : RingNo) (x : Ring) : (s.setRing r x).floor = s.floor := rfl
@[simp] theorem State.setRing_office (s : State) (r : RingNo) (x : Ring) : (s.setRing r x).office = s.office := rfl
@[simp] theorem State.setRing_floorLine (s : State) (r : RingNo) (x : Ring) : (s.setRing r x).floorLine = s.floorLine := rfl
@[simp] theorem State.setRing_boards (s : State) (r : RingNo) (x : Ring) : (s.setRing r x).boards = s.boards := rfl

/-! ## setSlot -/

@[simp] theorem State.setSlot_pending (s : State) (r : RingNo) (x : BoardSlot) : (s.setSlot r x).pending = s.pending := rfl
@[simp] theorem State.setSlot_choices (s : State) (r : RingNo) (x : BoardSlot) : (s.setSlot r x).choices = s.choices := rfl
@[simp] theorem State.setSlot_clock (s : State) (r : RingNo) (x : BoardSlot) : (s.setSlot r x).clock = s.clock := rfl
@[simp] theorem State.setSlot_op (s : State) (r : RingNo) (x : BoardSlot) : (s.setSlot r x).op = s.op := rfl
@[simp] theorem State.setSlot_hall (s : State) (r : RingNo) (x : BoardSlot) : (s.setSlot r x).hall = s.hall := rfl
@[simp] theorem State.setSlot_noticeLevel (s : State) (r : RingNo) (x : BoardSlot) : (s.setSlot r x).noticeLevel = s.noticeLevel := rfl
@[simp] theorem State.setSlot_latches (s : State) (r : RingNo) (x : BoardSlot) : (s.setSlot r x).latches = s.latches := rfl
@[simp] theorem State.setSlot_bank (s : State) (r : RingNo) (x : BoardSlot) : (s.setSlot r x).bank = s.bank := rfl
@[simp] theorem State.setSlot_queue (s : State) (r : RingNo) (x : BoardSlot) : (s.setSlot r x).queue = s.queue := rfl
@[simp] theorem State.setSlot_lotStore (s : State) (r : RingNo) (x : BoardSlot) : (s.setSlot r x).lotStore = s.lotStore := rfl
@[simp] theorem State.setSlot_rings (s : State) (r : RingNo) (x : BoardSlot) : (s.setSlot r x).rings = s.rings := rfl
@[simp] theorem State.setSlot_species (s : State) (r : RingNo) (x : BoardSlot) : (s.setSlot r x).species = s.species := rfl
@[simp] theorem State.setSlot_profiles (s : State) (r : RingNo) (x : BoardSlot) : (s.setSlot r x).profiles = s.profiles := rfl
@[simp] theorem State.setSlot_crateTypes (s : State) (r : RingNo) (x : BoardSlot) : (s.setSlot r x).crateTypes = s.crateTypes := rfl
@[simp] theorem State.setSlot_keypads (s : State) (r : RingNo) (x : BoardSlot) : (s.setSlot r x).keypads = s.keypads := rfl
@[simp] theorem State.setSlot_stations (s : State) (r : RingNo) (x : BoardSlot) : (s.setSlot r x).stations = s.stations := rfl
@[simp] theorem State.setSlot_ice (s : State) (r : RingNo) (x : BoardSlot) : (s.setSlot r x).ice = s.ice := rfl
@[simp] theorem State.setSlot_poller (s : State) (r : RingNo) (x : BoardSlot) : (s.setSlot r x).poller = s.poller := rfl
@[simp] theorem State.setSlot_quay (s : State) (r : RingNo) (x : BoardSlot) : (s.setSlot r x).quay = s.quay := rfl
@[simp] theorem State.setSlot_floor (s : State) (r : RingNo) (x : BoardSlot) : (s.setSlot r x).floor = s.floor := rfl
@[simp] theorem State.setSlot_office (s : State) (r : RingNo) (x : BoardSlot) : (s.setSlot r x).office = s.office := rfl
@[simp] theorem State.setSlot_floorLine (s : State) (r : RingNo) (x : BoardSlot) : (s.setSlot r x).floorLine = s.floorLine := rfl
@[simp] theorem State.setSlot_boards (s : State) (r : RingNo) (x : BoardSlot) : (s.setSlot r x).boards = { s.boards with slots := s.boards.slots.set r x } := rfl

/-! ## modRing -/

@[simp] theorem State.modRing_pending (s : State) (r : RingNo) (f : Ring → Ring) : (s.modRing r f).pending = s.pending := rfl
@[simp] theorem State.modRing_choices (s : State) (r : RingNo) (f : Ring → Ring) : (s.modRing r f).choices = s.choices := rfl
@[simp] theorem State.modRing_clock (s : State) (r : RingNo) (f : Ring → Ring) : (s.modRing r f).clock = s.clock := rfl
@[simp] theorem State.modRing_op (s : State) (r : RingNo) (f : Ring → Ring) : (s.modRing r f).op = s.op := rfl
@[simp] theorem State.modRing_hall (s : State) (r : RingNo) (f : Ring → Ring) : (s.modRing r f).hall = s.hall := rfl
@[simp] theorem State.modRing_noticeLevel (s : State) (r : RingNo) (f : Ring → Ring) : (s.modRing r f).noticeLevel = s.noticeLevel := rfl
@[simp] theorem State.modRing_latches (s : State) (r : RingNo) (f : Ring → Ring) : (s.modRing r f).latches = s.latches := rfl
@[simp] theorem State.modRing_bank (s : State) (r : RingNo) (f : Ring → Ring) : (s.modRing r f).bank = s.bank := rfl
@[simp] theorem State.modRing_queue (s : State) (r : RingNo) (f : Ring → Ring) : (s.modRing r f).queue = s.queue := rfl
@[simp] theorem State.modRing_lotStore (s : State) (r : RingNo) (f : Ring → Ring) : (s.modRing r f).lotStore = s.lotStore := rfl
@[simp] theorem State.modRing_rings (s : State) (r : RingNo) (f : Ring → Ring) : (s.modRing r f).rings = s.rings.set r (f (s.ring r)) := rfl
@[simp] theorem State.modRing_species (s : State) (r : RingNo) (f : Ring → Ring) : (s.modRing r f).species = s.species := rfl
@[simp] theorem State.modRing_profiles (s : State) (r : RingNo) (f : Ring → Ring) : (s.modRing r f).profiles = s.profiles := rfl
@[simp] theorem State.modRing_crateTypes (s : State) (r : RingNo) (f : Ring → Ring) : (s.modRing r f).crateTypes = s.crateTypes := rfl
@[simp] theorem State.modRing_keypads (s : State) (r : RingNo) (f : Ring → Ring) : (s.modRing r f).keypads = s.keypads := rfl
@[simp] theorem State.modRing_stations (s : State) (r : RingNo) (f : Ring → Ring) : (s.modRing r f).stations = s.stations := rfl
@[simp] theorem State.modRing_ice (s : State) (r : RingNo) (f : Ring → Ring) : (s.modRing r f).ice = s.ice := rfl
@[simp] theorem State.modRing_poller (s : State) (r : RingNo) (f : Ring → Ring) : (s.modRing r f).poller = s.poller := rfl
@[simp] theorem State.modRing_quay (s : State) (r : RingNo) (f : Ring → Ring) : (s.modRing r f).quay = s.quay := rfl
@[simp] theorem State.modRing_floor (s : State) (r : RingNo) (f : Ring → Ring) : (s.modRing r f).floor = s.floor := rfl
@[simp] theorem State.modRing_office (s : State) (r : RingNo) (f : Ring → Ring) : (s.modRing r f).office = s.office := rfl
@[simp] theorem State.modRing_floorLine (s : State) (r : RingNo) (f : Ring → Ring) : (s.modRing r f).floorLine = s.floorLine := rfl
@[simp] theorem State.modRing_boards (s : State) (r : RingNo) (f : Ring → Ring) : (s.modRing r f).boards = s.boards := rfl

/-! ## latchCause -/

@[simp] theorem State.latchCause_pending (s : State) (n : Notice) (q : Subject) (c : Option Latch16Cause) : (s.latchCause n q c).pending = s.pending := rfl
@[simp] theorem State.latchCause_choices (s : State) (n : Notice) (q : Subject) (c : Option Latch16Cause) : (s.latchCause n q c).choices = s.choices := rfl
@[simp] theorem State.latchCause_clock (s : State) (n : Notice) (q : Subject) (c : Option Latch16Cause) : (s.latchCause n q c).clock = s.clock := rfl
@[simp] theorem State.latchCause_op (s : State) (n : Notice) (q : Subject) (c : Option Latch16Cause) : (s.latchCause n q c).op = s.op := rfl
@[simp] theorem State.latchCause_hall (s : State) (n : Notice) (q : Subject) (c : Option Latch16Cause) : (s.latchCause n q c).hall = s.hall := rfl
@[simp] theorem State.latchCause_noticeLevel (s : State) (n : Notice) (q : Subject) (c : Option Latch16Cause) : (s.latchCause n q c).noticeLevel = s.noticeLevel := rfl
@[simp] theorem State.latchCause_latches (s : State) (n : Notice) (q : Subject) (c : Option Latch16Cause) : (s.latchCause n q c).latches = s.latches.set n.num ((s.latchAt n.num).occur s.clock q c) := rfl
@[simp] theorem State.latchCause_bank (s : State) (n : Notice) (q : Subject) (c : Option Latch16Cause) : (s.latchCause n q c).bank = s.bank := rfl
@[simp] theorem State.latchCause_queue (s : State) (n : Notice) (q : Subject) (c : Option Latch16Cause) : (s.latchCause n q c).queue = s.queue := rfl
@[simp] theorem State.latchCause_lotStore (s : State) (n : Notice) (q : Subject) (c : Option Latch16Cause) : (s.latchCause n q c).lotStore = s.lotStore := rfl
@[simp] theorem State.latchCause_rings (s : State) (n : Notice) (q : Subject) (c : Option Latch16Cause) : (s.latchCause n q c).rings = s.rings := rfl
@[simp] theorem State.latchCause_species (s : State) (n : Notice) (q : Subject) (c : Option Latch16Cause) : (s.latchCause n q c).species = s.species := rfl
@[simp] theorem State.latchCause_profiles (s : State) (n : Notice) (q : Subject) (c : Option Latch16Cause) : (s.latchCause n q c).profiles = s.profiles := rfl
@[simp] theorem State.latchCause_crateTypes (s : State) (n : Notice) (q : Subject) (c : Option Latch16Cause) : (s.latchCause n q c).crateTypes = s.crateTypes := rfl
@[simp] theorem State.latchCause_keypads (s : State) (n : Notice) (q : Subject) (c : Option Latch16Cause) : (s.latchCause n q c).keypads = s.keypads := rfl
@[simp] theorem State.latchCause_stations (s : State) (n : Notice) (q : Subject) (c : Option Latch16Cause) : (s.latchCause n q c).stations = s.stations := rfl
@[simp] theorem State.latchCause_ice (s : State) (n : Notice) (q : Subject) (c : Option Latch16Cause) : (s.latchCause n q c).ice = s.ice := rfl
@[simp] theorem State.latchCause_poller (s : State) (n : Notice) (q : Subject) (c : Option Latch16Cause) : (s.latchCause n q c).poller = s.poller := rfl
@[simp] theorem State.latchCause_quay (s : State) (n : Notice) (q : Subject) (c : Option Latch16Cause) : (s.latchCause n q c).quay = s.quay := rfl
@[simp] theorem State.latchCause_floor (s : State) (n : Notice) (q : Subject) (c : Option Latch16Cause) : (s.latchCause n q c).floor = s.floor := rfl
@[simp] theorem State.latchCause_office (s : State) (n : Notice) (q : Subject) (c : Option Latch16Cause) : (s.latchCause n q c).office = s.office := rfl
@[simp] theorem State.latchCause_floorLine (s : State) (n : Notice) (q : Subject) (c : Option Latch16Cause) : (s.latchCause n q c).floorLine = s.floorLine := rfl
@[simp] theorem State.latchCause_boards (s : State) (n : Notice) (q : Subject) (c : Option Latch16Cause) : (s.latchCause n q c).boards = s.boards := rfl

/-! ## latch -/

@[simp] theorem State.latch_pending (s : State) (n : Notice) (q : Subject) : (s.latch n q).pending = s.pending := rfl
@[simp] theorem State.latch_choices (s : State) (n : Notice) (q : Subject) : (s.latch n q).choices = s.choices := rfl
@[simp] theorem State.latch_clock (s : State) (n : Notice) (q : Subject) : (s.latch n q).clock = s.clock := rfl
@[simp] theorem State.latch_op (s : State) (n : Notice) (q : Subject) : (s.latch n q).op = s.op := rfl
@[simp] theorem State.latch_hall (s : State) (n : Notice) (q : Subject) : (s.latch n q).hall = s.hall := rfl
@[simp] theorem State.latch_noticeLevel (s : State) (n : Notice) (q : Subject) : (s.latch n q).noticeLevel = s.noticeLevel := rfl
@[simp] theorem State.latch_latches (s : State) (n : Notice) (q : Subject) : (s.latch n q).latches = s.latches.set n.num ((s.latchAt n.num).occur s.clock q none) := rfl
@[simp] theorem State.latch_bank (s : State) (n : Notice) (q : Subject) : (s.latch n q).bank = s.bank := rfl
@[simp] theorem State.latch_queue (s : State) (n : Notice) (q : Subject) : (s.latch n q).queue = s.queue := rfl
@[simp] theorem State.latch_lotStore (s : State) (n : Notice) (q : Subject) : (s.latch n q).lotStore = s.lotStore := rfl
@[simp] theorem State.latch_rings (s : State) (n : Notice) (q : Subject) : (s.latch n q).rings = s.rings := rfl
@[simp] theorem State.latch_species (s : State) (n : Notice) (q : Subject) : (s.latch n q).species = s.species := rfl
@[simp] theorem State.latch_profiles (s : State) (n : Notice) (q : Subject) : (s.latch n q).profiles = s.profiles := rfl
@[simp] theorem State.latch_crateTypes (s : State) (n : Notice) (q : Subject) : (s.latch n q).crateTypes = s.crateTypes := rfl
@[simp] theorem State.latch_keypads (s : State) (n : Notice) (q : Subject) : (s.latch n q).keypads = s.keypads := rfl
@[simp] theorem State.latch_stations (s : State) (n : Notice) (q : Subject) : (s.latch n q).stations = s.stations := rfl
@[simp] theorem State.latch_ice (s : State) (n : Notice) (q : Subject) : (s.latch n q).ice = s.ice := rfl
@[simp] theorem State.latch_poller (s : State) (n : Notice) (q : Subject) : (s.latch n q).poller = s.poller := rfl
@[simp] theorem State.latch_quay (s : State) (n : Notice) (q : Subject) : (s.latch n q).quay = s.quay := rfl
@[simp] theorem State.latch_floor (s : State) (n : Notice) (q : Subject) : (s.latch n q).floor = s.floor := rfl
@[simp] theorem State.latch_office (s : State) (n : Notice) (q : Subject) : (s.latch n q).office = s.office := rfl
@[simp] theorem State.latch_floorLine (s : State) (n : Notice) (q : Subject) : (s.latch n q).floorLine = s.floorLine := rfl
@[simp] theorem State.latch_boards (s : State) (n : Notice) (q : Subject) : (s.latch n q).boards = s.boards := rfl

/-! ## modStation -/

@[simp] theorem State.modStation_pending (s : State) (a : Nat) (f : Station → Station) : (s.modStation a f).pending = s.pending := rfl
@[simp] theorem State.modStation_choices (s : State) (a : Nat) (f : Station → Station) : (s.modStation a f).choices = s.choices := rfl
@[simp] theorem State.modStation_clock (s : State) (a : Nat) (f : Station → Station) : (s.modStation a f).clock = s.clock := rfl
@[simp] theorem State.modStation_op (s : State) (a : Nat) (f : Station → Station) : (s.modStation a f).op = s.op := rfl
@[simp] theorem State.modStation_hall (s : State) (a : Nat) (f : Station → Station) : (s.modStation a f).hall = s.hall := rfl
@[simp] theorem State.modStation_noticeLevel (s : State) (a : Nat) (f : Station → Station) : (s.modStation a f).noticeLevel = s.noticeLevel := rfl
@[simp] theorem State.modStation_latches (s : State) (a : Nat) (f : Station → Station) : (s.modStation a f).latches = s.latches := rfl
@[simp] theorem State.modStation_bank (s : State) (a : Nat) (f : Station → Station) : (s.modStation a f).bank = s.bank := rfl
@[simp] theorem State.modStation_queue (s : State) (a : Nat) (f : Station → Station) : (s.modStation a f).queue = s.queue := rfl
@[simp] theorem State.modStation_lotStore (s : State) (a : Nat) (f : Station → Station) : (s.modStation a f).lotStore = s.lotStore := rfl
@[simp] theorem State.modStation_rings (s : State) (a : Nat) (f : Station → Station) : (s.modStation a f).rings = s.rings := rfl
@[simp] theorem State.modStation_species (s : State) (a : Nat) (f : Station → Station) : (s.modStation a f).species = s.species := rfl
@[simp] theorem State.modStation_profiles (s : State) (a : Nat) (f : Station → Station) : (s.modStation a f).profiles = s.profiles := rfl
@[simp] theorem State.modStation_crateTypes (s : State) (a : Nat) (f : Station → Station) : (s.modStation a f).crateTypes = s.crateTypes := rfl
@[simp] theorem State.modStation_keypads (s : State) (a : Nat) (f : Station → Station) : (s.modStation a f).keypads = s.keypads := rfl
@[simp] theorem State.modStation_stations (s : State) (a : Nat) (f : Station → Station) : (s.modStation a f).stations = s.stations.modify a f := rfl
@[simp] theorem State.modStation_ice (s : State) (a : Nat) (f : Station → Station) : (s.modStation a f).ice = s.ice := rfl
@[simp] theorem State.modStation_poller (s : State) (a : Nat) (f : Station → Station) : (s.modStation a f).poller = s.poller := rfl
@[simp] theorem State.modStation_quay (s : State) (a : Nat) (f : Station → Station) : (s.modStation a f).quay = s.quay := rfl
@[simp] theorem State.modStation_floor (s : State) (a : Nat) (f : Station → Station) : (s.modStation a f).floor = s.floor := rfl
@[simp] theorem State.modStation_office (s : State) (a : Nat) (f : Station → Station) : (s.modStation a f).office = s.office := rfl
@[simp] theorem State.modStation_floorLine (s : State) (a : Nat) (f : Station → Station) : (s.modStation a f).floorLine = s.floorLine := rfl
@[simp] theorem State.modStation_boards (s : State) (a : Nat) (f : Station → Station) : (s.modStation a f).boards = s.boards := rfl

/-! ## setChannel -/

@[simp] theorem State.setChannel_pending (s : State) (a : Nat) (x : Channel) : (s.setChannel a x).pending = s.pending := rfl
@[simp] theorem State.setChannel_choices (s : State) (a : Nat) (x : Channel) : (s.setChannel a x).choices = s.choices := rfl
@[simp] theorem State.setChannel_clock (s : State) (a : Nat) (x : Channel) : (s.setChannel a x).clock = s.clock := rfl
@[simp] theorem State.setChannel_op (s : State) (a : Nat) (x : Channel) : (s.setChannel a x).op = s.op := rfl
@[simp] theorem State.setChannel_hall (s : State) (a : Nat) (x : Channel) : (s.setChannel a x).hall = s.hall := rfl
@[simp] theorem State.setChannel_noticeLevel (s : State) (a : Nat) (x : Channel) : (s.setChannel a x).noticeLevel = s.noticeLevel := rfl
@[simp] theorem State.setChannel_latches (s : State) (a : Nat) (x : Channel) : (s.setChannel a x).latches = s.latches := rfl
@[simp] theorem State.setChannel_bank (s : State) (a : Nat) (x : Channel) : (s.setChannel a x).bank = s.bank := rfl
@[simp] theorem State.setChannel_queue (s : State) (a : Nat) (x : Channel) : (s.setChannel a x).queue = s.queue := rfl
@[simp] theorem State.setChannel_lotStore (s : State) (a : Nat) (x : Channel) : (s.setChannel a x).lotStore = s.lotStore := rfl
@[simp] theorem State.setChannel_rings (s : State) (a : Nat) (x : Channel) : (s.setChannel a x).rings = s.rings := rfl
@[simp] theorem State.setChannel_species (s : State) (a : Nat) (x : Channel) : (s.setChannel a x).species = s.species := rfl
@[simp] theorem State.setChannel_profiles (s : State) (a : Nat) (x : Channel) : (s.setChannel a x).profiles = s.profiles := rfl
@[simp] theorem State.setChannel_crateTypes (s : State) (a : Nat) (x : Channel) : (s.setChannel a x).crateTypes = s.crateTypes := rfl
@[simp] theorem State.setChannel_keypads (s : State) (a : Nat) (x : Channel) : (s.setChannel a x).keypads = s.keypads := rfl
@[simp] theorem State.setChannel_stations (s : State) (a : Nat) (x : Channel) : (s.setChannel a x).stations = s.stations.modify a (fun st => st.withDevice (st.device.setChannel x)) := rfl
@[simp] theorem State.setChannel_ice (s : State) (a : Nat) (x : Channel) : (s.setChannel a x).ice = s.ice := rfl
@[simp] theorem State.setChannel_poller (s : State) (a : Nat) (x : Channel) : (s.setChannel a x).poller = s.poller := rfl
@[simp] theorem State.setChannel_quay (s : State) (a : Nat) (x : Channel) : (s.setChannel a x).quay = s.quay := rfl
@[simp] theorem State.setChannel_floor (s : State) (a : Nat) (x : Channel) : (s.setChannel a x).floor = s.floor := rfl
@[simp] theorem State.setChannel_office (s : State) (a : Nat) (x : Channel) : (s.setChannel a x).office = s.office := rfl
@[simp] theorem State.setChannel_floorLine (s : State) (a : Nat) (x : Channel) : (s.setChannel a x).floorLine = s.floorLine := rfl
@[simp] theorem State.setChannel_boards (s : State) (a : Nat) (x : Channel) : (s.setChannel a x).boards = s.boards := rfl

/-! ## setChute -/

@[simp] theorem State.setChute_pending (s : State) (a : Nat) (x : Chute) : (s.setChute a x).pending = s.pending := rfl
@[simp] theorem State.setChute_choices (s : State) (a : Nat) (x : Chute) : (s.setChute a x).choices = s.choices := rfl
@[simp] theorem State.setChute_clock (s : State) (a : Nat) (x : Chute) : (s.setChute a x).clock = s.clock := rfl
@[simp] theorem State.setChute_op (s : State) (a : Nat) (x : Chute) : (s.setChute a x).op = s.op := rfl
@[simp] theorem State.setChute_hall (s : State) (a : Nat) (x : Chute) : (s.setChute a x).hall = s.hall := rfl
@[simp] theorem State.setChute_noticeLevel (s : State) (a : Nat) (x : Chute) : (s.setChute a x).noticeLevel = s.noticeLevel := rfl
@[simp] theorem State.setChute_latches (s : State) (a : Nat) (x : Chute) : (s.setChute a x).latches = s.latches := rfl
@[simp] theorem State.setChute_bank (s : State) (a : Nat) (x : Chute) : (s.setChute a x).bank = s.bank := rfl
@[simp] theorem State.setChute_queue (s : State) (a : Nat) (x : Chute) : (s.setChute a x).queue = s.queue := rfl
@[simp] theorem State.setChute_lotStore (s : State) (a : Nat) (x : Chute) : (s.setChute a x).lotStore = s.lotStore := rfl
@[simp] theorem State.setChute_rings (s : State) (a : Nat) (x : Chute) : (s.setChute a x).rings = s.rings := rfl
@[simp] theorem State.setChute_species (s : State) (a : Nat) (x : Chute) : (s.setChute a x).species = s.species := rfl
@[simp] theorem State.setChute_profiles (s : State) (a : Nat) (x : Chute) : (s.setChute a x).profiles = s.profiles := rfl
@[simp] theorem State.setChute_crateTypes (s : State) (a : Nat) (x : Chute) : (s.setChute a x).crateTypes = s.crateTypes := rfl
@[simp] theorem State.setChute_keypads (s : State) (a : Nat) (x : Chute) : (s.setChute a x).keypads = s.keypads := rfl
@[simp] theorem State.setChute_stations (s : State) (a : Nat) (x : Chute) : (s.setChute a x).stations = s.stations.modify a (fun st => st.withDevice (st.device.setChute x)) := rfl
@[simp] theorem State.setChute_ice (s : State) (a : Nat) (x : Chute) : (s.setChute a x).ice = s.ice := rfl
@[simp] theorem State.setChute_poller (s : State) (a : Nat) (x : Chute) : (s.setChute a x).poller = s.poller := rfl
@[simp] theorem State.setChute_quay (s : State) (a : Nat) (x : Chute) : (s.setChute a x).quay = s.quay := rfl
@[simp] theorem State.setChute_floor (s : State) (a : Nat) (x : Chute) : (s.setChute a x).floor = s.floor := rfl
@[simp] theorem State.setChute_office (s : State) (a : Nat) (x : Chute) : (s.setChute a x).office = s.office := rfl
@[simp] theorem State.setChute_floorLine (s : State) (a : Nat) (x : Chute) : (s.setChute a x).floorLine = s.floorLine := rfl
@[simp] theorem State.setChute_boards (s : State) (a : Nat) (x : Chute) : (s.setChute a x).boards = s.boards := rfl

/-! ## setGate -/

@[simp] theorem State.setGate_pending (s : State) (a : Nat) (x : Gate) : (s.setGate a x).pending = s.pending := rfl
@[simp] theorem State.setGate_choices (s : State) (a : Nat) (x : Gate) : (s.setGate a x).choices = s.choices := rfl
@[simp] theorem State.setGate_clock (s : State) (a : Nat) (x : Gate) : (s.setGate a x).clock = s.clock := rfl
@[simp] theorem State.setGate_op (s : State) (a : Nat) (x : Gate) : (s.setGate a x).op = s.op := rfl
@[simp] theorem State.setGate_hall (s : State) (a : Nat) (x : Gate) : (s.setGate a x).hall = s.hall := rfl
@[simp] theorem State.setGate_noticeLevel (s : State) (a : Nat) (x : Gate) : (s.setGate a x).noticeLevel = s.noticeLevel := rfl
@[simp] theorem State.setGate_latches (s : State) (a : Nat) (x : Gate) : (s.setGate a x).latches = s.latches := rfl
@[simp] theorem State.setGate_bank (s : State) (a : Nat) (x : Gate) : (s.setGate a x).bank = s.bank := rfl
@[simp] theorem State.setGate_queue (s : State) (a : Nat) (x : Gate) : (s.setGate a x).queue = s.queue := rfl
@[simp] theorem State.setGate_lotStore (s : State) (a : Nat) (x : Gate) : (s.setGate a x).lotStore = s.lotStore := rfl
@[simp] theorem State.setGate_rings (s : State) (a : Nat) (x : Gate) : (s.setGate a x).rings = s.rings := rfl
@[simp] theorem State.setGate_species (s : State) (a : Nat) (x : Gate) : (s.setGate a x).species = s.species := rfl
@[simp] theorem State.setGate_profiles (s : State) (a : Nat) (x : Gate) : (s.setGate a x).profiles = s.profiles := rfl
@[simp] theorem State.setGate_crateTypes (s : State) (a : Nat) (x : Gate) : (s.setGate a x).crateTypes = s.crateTypes := rfl
@[simp] theorem State.setGate_keypads (s : State) (a : Nat) (x : Gate) : (s.setGate a x).keypads = s.keypads := rfl
@[simp] theorem State.setGate_stations (s : State) (a : Nat) (x : Gate) : (s.setGate a x).stations = s.stations.modify a (fun st => st.withDevice (st.device.setGate x)) := rfl
@[simp] theorem State.setGate_ice (s : State) (a : Nat) (x : Gate) : (s.setGate a x).ice = s.ice := rfl
@[simp] theorem State.setGate_poller (s : State) (a : Nat) (x : Gate) : (s.setGate a x).poller = s.poller := rfl
@[simp] theorem State.setGate_quay (s : State) (a : Nat) (x : Gate) : (s.setGate a x).quay = s.quay := rfl
@[simp] theorem State.setGate_floor (s : State) (a : Nat) (x : Gate) : (s.setGate a x).floor = s.floor := rfl
@[simp] theorem State.setGate_office (s : State) (a : Nat) (x : Gate) : (s.setGate a x).office = s.office := rfl
@[simp] theorem State.setGate_floorLine (s : State) (a : Nat) (x : Gate) : (s.setGate a x).floorLine = s.floorLine := rfl
@[simp] theorem State.setGate_boards (s : State) (a : Nat) (x : Gate) : (s.setGate a x).boards = s.boards := rfl

/-! ## modAccount -/

@[simp] theorem State.modAccount_pending (s : State) (n : Nat) (f : Account → Account) : (s.modAccount n f).pending = s.pending := rfl
@[simp] theorem State.modAccount_choices (s : State) (n : Nat) (f : Account → Account) : (s.modAccount n f).choices = s.choices := rfl
@[simp] theorem State.modAccount_clock (s : State) (n : Nat) (f : Account → Account) : (s.modAccount n f).clock = s.clock := rfl
@[simp] theorem State.modAccount_op (s : State) (n : Nat) (f : Account → Account) : (s.modAccount n f).op = s.op := rfl
@[simp] theorem State.modAccount_hall (s : State) (n : Nat) (f : Account → Account) : (s.modAccount n f).hall = s.hall := rfl
@[simp] theorem State.modAccount_noticeLevel (s : State) (n : Nat) (f : Account → Account) : (s.modAccount n f).noticeLevel = s.noticeLevel := rfl
@[simp] theorem State.modAccount_latches (s : State) (n : Nat) (f : Account → Account) : (s.modAccount n f).latches = s.latches := rfl
@[simp] theorem State.modAccount_bank (s : State) (n : Nat) (f : Account → Account) : (s.modAccount n f).bank = { s.bank with accounts := s.bank.accounts.modAccount n f } := rfl
@[simp] theorem State.modAccount_queue (s : State) (n : Nat) (f : Account → Account) : (s.modAccount n f).queue = s.queue := rfl
@[simp] theorem State.modAccount_lotStore (s : State) (n : Nat) (f : Account → Account) : (s.modAccount n f).lotStore = s.lotStore := rfl
@[simp] theorem State.modAccount_rings (s : State) (n : Nat) (f : Account → Account) : (s.modAccount n f).rings = s.rings := rfl
@[simp] theorem State.modAccount_species (s : State) (n : Nat) (f : Account → Account) : (s.modAccount n f).species = s.species := rfl
@[simp] theorem State.modAccount_profiles (s : State) (n : Nat) (f : Account → Account) : (s.modAccount n f).profiles = s.profiles := rfl
@[simp] theorem State.modAccount_crateTypes (s : State) (n : Nat) (f : Account → Account) : (s.modAccount n f).crateTypes = s.crateTypes := rfl
@[simp] theorem State.modAccount_keypads (s : State) (n : Nat) (f : Account → Account) : (s.modAccount n f).keypads = s.keypads := rfl
@[simp] theorem State.modAccount_stations (s : State) (n : Nat) (f : Account → Account) : (s.modAccount n f).stations = s.stations := rfl
@[simp] theorem State.modAccount_ice (s : State) (n : Nat) (f : Account → Account) : (s.modAccount n f).ice = s.ice := rfl
@[simp] theorem State.modAccount_poller (s : State) (n : Nat) (f : Account → Account) : (s.modAccount n f).poller = s.poller := rfl
@[simp] theorem State.modAccount_quay (s : State) (n : Nat) (f : Account → Account) : (s.modAccount n f).quay = s.quay := rfl
@[simp] theorem State.modAccount_floor (s : State) (n : Nat) (f : Account → Account) : (s.modAccount n f).floor = s.floor := rfl
@[simp] theorem State.modAccount_office (s : State) (n : Nat) (f : Account → Account) : (s.modAccount n f).office = s.office := rfl
@[simp] theorem State.modAccount_floorLine (s : State) (n : Nat) (f : Account → Account) : (s.modAccount n f).floorLine = s.floorLine := rfl
@[simp] theorem State.modAccount_boards (s : State) (n : Nat) (f : Account → Account) : (s.modAccount n f).boards = s.boards := rfl

/-! ## addResidue -/

@[simp] theorem State.addResidue_pending (s : State) (x : Int) : (s.addResidue x).pending = s.pending := rfl
@[simp] theorem State.addResidue_choices (s : State) (x : Int) : (s.addResidue x).choices = s.choices := rfl
@[simp] theorem State.addResidue_clock (s : State) (x : Int) : (s.addResidue x).clock = s.clock := rfl
@[simp] theorem State.addResidue_op (s : State) (x : Int) : (s.addResidue x).op = s.op := rfl
@[simp] theorem State.addResidue_hall (s : State) (x : Int) : (s.addResidue x).hall = s.hall := rfl
@[simp] theorem State.addResidue_noticeLevel (s : State) (x : Int) : (s.addResidue x).noticeLevel = s.noticeLevel := rfl
@[simp] theorem State.addResidue_latches (s : State) (x : Int) : (s.addResidue x).latches = s.latches := rfl
@[simp] theorem State.addResidue_bank (s : State) (x : Int) : (s.addResidue x).bank = { s.bank with residue := s.bank.residue + x } := rfl
@[simp] theorem State.addResidue_queue (s : State) (x : Int) : (s.addResidue x).queue = s.queue := rfl
@[simp] theorem State.addResidue_lotStore (s : State) (x : Int) : (s.addResidue x).lotStore = s.lotStore := rfl
@[simp] theorem State.addResidue_rings (s : State) (x : Int) : (s.addResidue x).rings = s.rings := rfl
@[simp] theorem State.addResidue_species (s : State) (x : Int) : (s.addResidue x).species = s.species := rfl
@[simp] theorem State.addResidue_profiles (s : State) (x : Int) : (s.addResidue x).profiles = s.profiles := rfl
@[simp] theorem State.addResidue_crateTypes (s : State) (x : Int) : (s.addResidue x).crateTypes = s.crateTypes := rfl
@[simp] theorem State.addResidue_keypads (s : State) (x : Int) : (s.addResidue x).keypads = s.keypads := rfl
@[simp] theorem State.addResidue_stations (s : State) (x : Int) : (s.addResidue x).stations = s.stations := rfl
@[simp] theorem State.addResidue_ice (s : State) (x : Int) : (s.addResidue x).ice = s.ice := rfl
@[simp] theorem State.addResidue_poller (s : State) (x : Int) : (s.addResidue x).poller = s.poller := rfl
@[simp] theorem State.addResidue_quay (s : State) (x : Int) : (s.addResidue x).quay = s.quay := rfl
@[simp] theorem State.addResidue_floor (s : State) (x : Int) : (s.addResidue x).floor = s.floor := rfl
@[simp] theorem State.addResidue_office (s : State) (x : Int) : (s.addResidue x).office = s.office := rfl
@[simp] theorem State.addResidue_floorLine (s : State) (x : Int) : (s.addResidue x).floorLine = s.floorLine := rfl
@[simp] theorem State.addResidue_boards (s : State) (x : Int) : (s.addResidue x).boards = s.boards := rfl

/-! ## setFlags -/

@[simp] theorem State.setFlags_pending (s : State) (n : Nat) (b : Bool) : (s.setFlags n b).pending = s.pending := rfl
@[simp] theorem State.setFlags_choices (s : State) (n : Nat) (b : Bool) : (s.setFlags n b).choices = s.choices := rfl
@[simp] theorem State.setFlags_clock (s : State) (n : Nat) (b : Bool) : (s.setFlags n b).clock = s.clock := rfl
@[simp] theorem State.setFlags_op (s : State) (n : Nat) (b : Bool) : (s.setFlags n b).op = s.op := rfl
@[simp] theorem State.setFlags_hall (s : State) (n : Nat) (b : Bool) : (s.setFlags n b).hall = s.hall := rfl
@[simp] theorem State.setFlags_noticeLevel (s : State) (n : Nat) (b : Bool) : (s.setFlags n b).noticeLevel = s.noticeLevel := rfl
@[simp] theorem State.setFlags_latches (s : State) (n : Nat) (b : Bool) : (s.setFlags n b).latches = s.latches := rfl
@[simp] theorem State.setFlags_bank (s : State) (n : Nat) (b : Bool) : (s.setFlags n b).bank = { s.bank with accounts := s.bank.accounts.modAccount n (fun a => { a with flags := a.flagsAfter b }) } := rfl
@[simp] theorem State.setFlags_queue (s : State) (n : Nat) (b : Bool) : (s.setFlags n b).queue = s.queue := rfl
@[simp] theorem State.setFlags_lotStore (s : State) (n : Nat) (b : Bool) : (s.setFlags n b).lotStore = s.lotStore := rfl
@[simp] theorem State.setFlags_rings (s : State) (n : Nat) (b : Bool) : (s.setFlags n b).rings = s.rings := rfl
@[simp] theorem State.setFlags_species (s : State) (n : Nat) (b : Bool) : (s.setFlags n b).species = s.species := rfl
@[simp] theorem State.setFlags_profiles (s : State) (n : Nat) (b : Bool) : (s.setFlags n b).profiles = s.profiles := rfl
@[simp] theorem State.setFlags_crateTypes (s : State) (n : Nat) (b : Bool) : (s.setFlags n b).crateTypes = s.crateTypes := rfl
@[simp] theorem State.setFlags_keypads (s : State) (n : Nat) (b : Bool) : (s.setFlags n b).keypads = s.keypads := rfl
@[simp] theorem State.setFlags_stations (s : State) (n : Nat) (b : Bool) : (s.setFlags n b).stations = s.stations := rfl
@[simp] theorem State.setFlags_ice (s : State) (n : Nat) (b : Bool) : (s.setFlags n b).ice = s.ice := rfl
@[simp] theorem State.setFlags_poller (s : State) (n : Nat) (b : Bool) : (s.setFlags n b).poller = s.poller := rfl
@[simp] theorem State.setFlags_quay (s : State) (n : Nat) (b : Bool) : (s.setFlags n b).quay = s.quay := rfl
@[simp] theorem State.setFlags_floor (s : State) (n : Nat) (b : Bool) : (s.setFlags n b).floor = s.floor := rfl
@[simp] theorem State.setFlags_office (s : State) (n : Nat) (b : Bool) : (s.setFlags n b).office = s.office := rfl
@[simp] theorem State.setFlags_floorLine (s : State) (n : Nat) (b : Bool) : (s.setFlags n b).floorLine = s.floorLine := rfl
@[simp] theorem State.setFlags_boards (s : State) (n : Nat) (b : Bool) : (s.setFlags n b).boards = s.boards := rfl

/-! ## addTotals -/

@[simp] theorem State.addTotals_pending (s : State) (n : Nat) (f : DayTotals → DayTotals) : (s.addTotals n f).pending = s.pending := rfl
@[simp] theorem State.addTotals_choices (s : State) (n : Nat) (f : DayTotals → DayTotals) : (s.addTotals n f).choices = s.choices := rfl
@[simp] theorem State.addTotals_clock (s : State) (n : Nat) (f : DayTotals → DayTotals) : (s.addTotals n f).clock = s.clock := rfl
@[simp] theorem State.addTotals_op (s : State) (n : Nat) (f : DayTotals → DayTotals) : (s.addTotals n f).op = s.op := rfl
@[simp] theorem State.addTotals_hall (s : State) (n : Nat) (f : DayTotals → DayTotals) : (s.addTotals n f).hall = s.hall := rfl
@[simp] theorem State.addTotals_noticeLevel (s : State) (n : Nat) (f : DayTotals → DayTotals) : (s.addTotals n f).noticeLevel = s.noticeLevel := rfl
@[simp] theorem State.addTotals_latches (s : State) (n : Nat) (f : DayTotals → DayTotals) : (s.addTotals n f).latches = s.latches := rfl
@[simp] theorem State.addTotals_bank (s : State) (n : Nat) (f : DayTotals → DayTotals) : (s.addTotals n f).bank = { s.bank with accounts := s.bank.accounts.modAccount n (fun a => { a with totals := f a.totals }) } := rfl
@[simp] theorem State.addTotals_queue (s : State) (n : Nat) (f : DayTotals → DayTotals) : (s.addTotals n f).queue = s.queue := rfl
@[simp] theorem State.addTotals_lotStore (s : State) (n : Nat) (f : DayTotals → DayTotals) : (s.addTotals n f).lotStore = s.lotStore := rfl
@[simp] theorem State.addTotals_rings (s : State) (n : Nat) (f : DayTotals → DayTotals) : (s.addTotals n f).rings = s.rings := rfl
@[simp] theorem State.addTotals_species (s : State) (n : Nat) (f : DayTotals → DayTotals) : (s.addTotals n f).species = s.species := rfl
@[simp] theorem State.addTotals_profiles (s : State) (n : Nat) (f : DayTotals → DayTotals) : (s.addTotals n f).profiles = s.profiles := rfl
@[simp] theorem State.addTotals_crateTypes (s : State) (n : Nat) (f : DayTotals → DayTotals) : (s.addTotals n f).crateTypes = s.crateTypes := rfl
@[simp] theorem State.addTotals_keypads (s : State) (n : Nat) (f : DayTotals → DayTotals) : (s.addTotals n f).keypads = s.keypads := rfl
@[simp] theorem State.addTotals_stations (s : State) (n : Nat) (f : DayTotals → DayTotals) : (s.addTotals n f).stations = s.stations := rfl
@[simp] theorem State.addTotals_ice (s : State) (n : Nat) (f : DayTotals → DayTotals) : (s.addTotals n f).ice = s.ice := rfl
@[simp] theorem State.addTotals_poller (s : State) (n : Nat) (f : DayTotals → DayTotals) : (s.addTotals n f).poller = s.poller := rfl
@[simp] theorem State.addTotals_quay (s : State) (n : Nat) (f : DayTotals → DayTotals) : (s.addTotals n f).quay = s.quay := rfl
@[simp] theorem State.addTotals_floor (s : State) (n : Nat) (f : DayTotals → DayTotals) : (s.addTotals n f).floor = s.floor := rfl
@[simp] theorem State.addTotals_office (s : State) (n : Nat) (f : DayTotals → DayTotals) : (s.addTotals n f).office = s.office := rfl
@[simp] theorem State.addTotals_floorLine (s : State) (n : Nat) (f : DayTotals → DayTotals) : (s.addTotals n f).floorLine = s.floorLine := rfl
@[simp] theorem State.addTotals_boards (s : State) (n : Nat) (f : DayTotals → DayTotals) : (s.addTotals n f).boards = s.boards := rfl

/-! ## addCrateResidue -/

@[simp] theorem State.addCrateResidue_pending (s : State) (t : Nat) (x : Int) : (s.addCrateResidue t x).pending = s.pending := rfl
@[simp] theorem State.addCrateResidue_choices (s : State) (t : Nat) (x : Int) : (s.addCrateResidue t x).choices = s.choices := rfl
@[simp] theorem State.addCrateResidue_clock (s : State) (t : Nat) (x : Int) : (s.addCrateResidue t x).clock = s.clock := rfl
@[simp] theorem State.addCrateResidue_op (s : State) (t : Nat) (x : Int) : (s.addCrateResidue t x).op = s.op := rfl
@[simp] theorem State.addCrateResidue_hall (s : State) (t : Nat) (x : Int) : (s.addCrateResidue t x).hall = s.hall := rfl
@[simp] theorem State.addCrateResidue_noticeLevel (s : State) (t : Nat) (x : Int) : (s.addCrateResidue t x).noticeLevel = s.noticeLevel := rfl
@[simp] theorem State.addCrateResidue_latches (s : State) (t : Nat) (x : Int) : (s.addCrateResidue t x).latches = s.latches := rfl
@[simp] theorem State.addCrateResidue_bank (s : State) (t : Nat) (x : Int) : (s.addCrateResidue t x).bank = s.bank := rfl
@[simp] theorem State.addCrateResidue_queue (s : State) (t : Nat) (x : Int) : (s.addCrateResidue t x).queue = s.queue := rfl
@[simp] theorem State.addCrateResidue_lotStore (s : State) (t : Nat) (x : Int) : (s.addCrateResidue t x).lotStore = s.lotStore := rfl
@[simp] theorem State.addCrateResidue_rings (s : State) (t : Nat) (x : Int) : (s.addCrateResidue t x).rings = s.rings := rfl
@[simp] theorem State.addCrateResidue_species (s : State) (t : Nat) (x : Int) : (s.addCrateResidue t x).species = s.species := rfl
@[simp] theorem State.addCrateResidue_profiles (s : State) (t : Nat) (x : Int) : (s.addCrateResidue t x).profiles = s.profiles := rfl
@[simp] theorem State.addCrateResidue_crateTypes (s : State) (t : Nat) (x : Int) : (s.addCrateResidue t x).crateTypes = s.crateTypes.modify t (fun c => { c with residue := c.residue + x }) := rfl
@[simp] theorem State.addCrateResidue_keypads (s : State) (t : Nat) (x : Int) : (s.addCrateResidue t x).keypads = s.keypads := rfl
@[simp] theorem State.addCrateResidue_stations (s : State) (t : Nat) (x : Int) : (s.addCrateResidue t x).stations = s.stations := rfl
@[simp] theorem State.addCrateResidue_ice (s : State) (t : Nat) (x : Int) : (s.addCrateResidue t x).ice = s.ice := rfl
@[simp] theorem State.addCrateResidue_poller (s : State) (t : Nat) (x : Int) : (s.addCrateResidue t x).poller = s.poller := rfl
@[simp] theorem State.addCrateResidue_quay (s : State) (t : Nat) (x : Int) : (s.addCrateResidue t x).quay = s.quay := rfl
@[simp] theorem State.addCrateResidue_floor (s : State) (t : Nat) (x : Int) : (s.addCrateResidue t x).floor = s.floor := rfl
@[simp] theorem State.addCrateResidue_office (s : State) (t : Nat) (x : Int) : (s.addCrateResidue t x).office = s.office := rfl
@[simp] theorem State.addCrateResidue_floorLine (s : State) (t : Nat) (x : Int) : (s.addCrateResidue t x).floorLine = s.floorLine := rfl
@[simp] theorem State.addCrateResidue_boards (s : State) (t : Nat) (x : Int) : (s.addCrateResidue t x).boards = s.boards := rfl

/-! ## takeClaims -/

@[simp] theorem State.takeClaims_pending (s : State) (c : Nat) : (s.takeClaims c).pending = s.pending := rfl
@[simp] theorem State.takeClaims_choices (s : State) (c : Nat) : (s.takeClaims c).choices = s.choices := rfl
@[simp] theorem State.takeClaims_clock (s : State) (c : Nat) : (s.takeClaims c).clock = s.clock := rfl
@[simp] theorem State.takeClaims_op (s : State) (c : Nat) : (s.takeClaims c).op = s.op := rfl
@[simp] theorem State.takeClaims_hall (s : State) (c : Nat) : (s.takeClaims c).hall = s.hall := rfl
@[simp] theorem State.takeClaims_noticeLevel (s : State) (c : Nat) : (s.takeClaims c).noticeLevel = s.noticeLevel := rfl
@[simp] theorem State.takeClaims_latches (s : State) (c : Nat) : (s.takeClaims c).latches = s.latches := rfl
@[simp] theorem State.takeClaims_bank (s : State) (c : Nat) : (s.takeClaims c).bank = s.bank := rfl
@[simp] theorem State.takeClaims_queue (s : State) (c : Nat) : (s.takeClaims c).queue = { s.queue with owed := s.queue.owed + c } := rfl
@[simp] theorem State.takeClaims_lotStore (s : State) (c : Nat) : (s.takeClaims c).lotStore = s.lotStore := rfl
@[simp] theorem State.takeClaims_rings (s : State) (c : Nat) : (s.takeClaims c).rings = s.rings := rfl
@[simp] theorem State.takeClaims_species (s : State) (c : Nat) : (s.takeClaims c).species = s.species := rfl
@[simp] theorem State.takeClaims_profiles (s : State) (c : Nat) : (s.takeClaims c).profiles = s.profiles := rfl
@[simp] theorem State.takeClaims_crateTypes (s : State) (c : Nat) : (s.takeClaims c).crateTypes = s.crateTypes := rfl
@[simp] theorem State.takeClaims_keypads (s : State) (c : Nat) : (s.takeClaims c).keypads = s.keypads := rfl
@[simp] theorem State.takeClaims_stations (s : State) (c : Nat) : (s.takeClaims c).stations = s.stations := rfl
@[simp] theorem State.takeClaims_ice (s : State) (c : Nat) : (s.takeClaims c).ice = s.ice := rfl
@[simp] theorem State.takeClaims_poller (s : State) (c : Nat) : (s.takeClaims c).poller = s.poller := rfl
@[simp] theorem State.takeClaims_quay (s : State) (c : Nat) : (s.takeClaims c).quay = s.quay := rfl
@[simp] theorem State.takeClaims_floor (s : State) (c : Nat) : (s.takeClaims c).floor = s.floor := rfl
@[simp] theorem State.takeClaims_office (s : State) (c : Nat) : (s.takeClaims c).office = s.office := rfl
@[simp] theorem State.takeClaims_floorLine (s : State) (c : Nat) : (s.takeClaims c).floorLine = s.floorLine := rfl
@[simp] theorem State.takeClaims_boards (s : State) (c : Nat) : (s.takeClaims c).boards = s.boards := rfl

/-! ## tellRings -/

@[simp] theorem State.tellRings_pending (s : State) (c : Nat) : (s.tellRings c).pending = s.pending := rfl
@[simp] theorem State.tellRings_choices (s : State) (c : Nat) : (s.tellRings c).choices = s.choices := rfl
@[simp] theorem State.tellRings_clock (s : State) (c : Nat) : (s.tellRings c).clock = s.clock := rfl
@[simp] theorem State.tellRings_op (s : State) (c : Nat) : (s.tellRings c).op = s.op := rfl
@[simp] theorem State.tellRings_hall (s : State) (c : Nat) : (s.tellRings c).hall = s.hall := rfl
@[simp] theorem State.tellRings_noticeLevel (s : State) (c : Nat) : (s.tellRings c).noticeLevel = s.noticeLevel := rfl
@[simp] theorem State.tellRings_latches (s : State) (c : Nat) : (s.tellRings c).latches = s.latches := rfl
@[simp] theorem State.tellRings_bank (s : State) (c : Nat) : (s.tellRings c).bank = s.bank := rfl
@[simp] theorem State.tellRings_queue (s : State) (c : Nat) : (s.tellRings c).queue = s.queue := rfl
@[simp] theorem State.tellRings_lotStore (s : State) (c : Nat) : (s.tellRings c).lotStore = s.lotStore := rfl
@[simp] theorem State.tellRings_rings (s : State) (c : Nat) : (s.tellRings c).rings = s.rings.map (fun x => x.tellFreed c) := rfl
@[simp] theorem State.tellRings_species (s : State) (c : Nat) : (s.tellRings c).species = s.species := rfl
@[simp] theorem State.tellRings_profiles (s : State) (c : Nat) : (s.tellRings c).profiles = s.profiles := rfl
@[simp] theorem State.tellRings_crateTypes (s : State) (c : Nat) : (s.tellRings c).crateTypes = s.crateTypes := rfl
@[simp] theorem State.tellRings_keypads (s : State) (c : Nat) : (s.tellRings c).keypads = s.keypads := rfl
@[simp] theorem State.tellRings_stations (s : State) (c : Nat) : (s.tellRings c).stations = s.stations := rfl
@[simp] theorem State.tellRings_ice (s : State) (c : Nat) : (s.tellRings c).ice = s.ice := rfl
@[simp] theorem State.tellRings_poller (s : State) (c : Nat) : (s.tellRings c).poller = s.poller := rfl
@[simp] theorem State.tellRings_quay (s : State) (c : Nat) : (s.tellRings c).quay = s.quay := rfl
@[simp] theorem State.tellRings_floor (s : State) (c : Nat) : (s.tellRings c).floor = s.floor := rfl
@[simp] theorem State.tellRings_office (s : State) (c : Nat) : (s.tellRings c).office = s.office := rfl
@[simp] theorem State.tellRings_floorLine (s : State) (c : Nat) : (s.tellRings c).floorLine = s.floorLine := rfl
@[simp] theorem State.tellRings_boards (s : State) (c : Nat) : (s.tellRings c).boards = s.boards := rfl

/-! ## releaseClaims -/

@[simp] theorem State.releaseClaims_pending (s : State) (c : Nat) : (s.releaseClaims c).pending = s.pending := rfl
@[simp] theorem State.releaseClaims_choices (s : State) (c : Nat) : (s.releaseClaims c).choices = s.choices := rfl
@[simp] theorem State.releaseClaims_clock (s : State) (c : Nat) : (s.releaseClaims c).clock = s.clock := rfl
@[simp] theorem State.releaseClaims_op (s : State) (c : Nat) : (s.releaseClaims c).op = s.op := rfl
@[simp] theorem State.releaseClaims_hall (s : State) (c : Nat) : (s.releaseClaims c).hall = s.hall := rfl
@[simp] theorem State.releaseClaims_noticeLevel (s : State) (c : Nat) : (s.releaseClaims c).noticeLevel = s.noticeLevel := rfl
@[simp] theorem State.releaseClaims_latches (s : State) (c : Nat) : (s.releaseClaims c).latches = s.latches := rfl
@[simp] theorem State.releaseClaims_bank (s : State) (c : Nat) : (s.releaseClaims c).bank = s.bank := rfl
@[simp] theorem State.releaseClaims_queue (s : State) (c : Nat) : (s.releaseClaims c).queue = { s.queue with owed := s.queue.owed - c } := rfl
@[simp] theorem State.releaseClaims_lotStore (s : State) (c : Nat) : (s.releaseClaims c).lotStore = s.lotStore := rfl
@[simp] theorem State.releaseClaims_rings (s : State) (c : Nat) : (s.releaseClaims c).rings = s.rings.map (fun x => x.tellFreed c) := rfl
@[simp] theorem State.releaseClaims_species (s : State) (c : Nat) : (s.releaseClaims c).species = s.species := rfl
@[simp] theorem State.releaseClaims_profiles (s : State) (c : Nat) : (s.releaseClaims c).profiles = s.profiles := rfl
@[simp] theorem State.releaseClaims_crateTypes (s : State) (c : Nat) : (s.releaseClaims c).crateTypes = s.crateTypes := rfl
@[simp] theorem State.releaseClaims_keypads (s : State) (c : Nat) : (s.releaseClaims c).keypads = s.keypads := rfl
@[simp] theorem State.releaseClaims_stations (s : State) (c : Nat) : (s.releaseClaims c).stations = s.stations := rfl
@[simp] theorem State.releaseClaims_ice (s : State) (c : Nat) : (s.releaseClaims c).ice = s.ice := rfl
@[simp] theorem State.releaseClaims_poller (s : State) (c : Nat) : (s.releaseClaims c).poller = s.poller := rfl
@[simp] theorem State.releaseClaims_quay (s : State) (c : Nat) : (s.releaseClaims c).quay = s.quay := rfl
@[simp] theorem State.releaseClaims_floor (s : State) (c : Nat) : (s.releaseClaims c).floor = s.floor := rfl
@[simp] theorem State.releaseClaims_office (s : State) (c : Nat) : (s.releaseClaims c).office = s.office := rfl
@[simp] theorem State.releaseClaims_floorLine (s : State) (c : Nat) : (s.releaseClaims c).floorLine = s.floorLine := rfl
@[simp] theorem State.releaseClaims_boards (s : State) (c : Nat) : (s.releaseClaims c).boards = s.boards := rfl
/-! ## removeRecords -/

@[simp] theorem State.removeRecords_pending (s : State) (c : Nat) : (s.removeRecords c).pending = s.pending := rfl
@[simp] theorem State.removeRecords_choices (s : State) (c : Nat) : (s.removeRecords c).choices = s.choices := rfl
@[simp] theorem State.removeRecords_clock (s : State) (c : Nat) : (s.removeRecords c).clock = s.clock := rfl
@[simp] theorem State.removeRecords_op (s : State) (c : Nat) : (s.removeRecords c).op = s.op := rfl
@[simp] theorem State.removeRecords_hall (s : State) (c : Nat) : (s.removeRecords c).hall = s.hall := rfl
@[simp] theorem State.removeRecords_noticeLevel (s : State) (c : Nat) : (s.removeRecords c).noticeLevel = s.noticeLevel := rfl
@[simp] theorem State.removeRecords_latches (s : State) (c : Nat) : (s.removeRecords c).latches = s.latches := rfl
@[simp] theorem State.removeRecords_bank (s : State) (c : Nat) : (s.removeRecords c).bank = s.bank := rfl
@[simp] theorem State.removeRecords_queue (s : State) (c : Nat) : (s.removeRecords c).queue = { s.queue with records := s.queue.records.drop c } := rfl
@[simp] theorem State.removeRecords_lotStore (s : State) (c : Nat) : (s.removeRecords c).lotStore = s.lotStore := rfl
@[simp] theorem State.removeRecords_rings (s : State) (c : Nat) : (s.removeRecords c).rings = s.rings.map (fun x => x.tellFreed c) := rfl
@[simp] theorem State.removeRecords_species (s : State) (c : Nat) : (s.removeRecords c).species = s.species := rfl
@[simp] theorem State.removeRecords_profiles (s : State) (c : Nat) : (s.removeRecords c).profiles = s.profiles := rfl
@[simp] theorem State.removeRecords_crateTypes (s : State) (c : Nat) : (s.removeRecords c).crateTypes = s.crateTypes := rfl
@[simp] theorem State.removeRecords_keypads (s : State) (c : Nat) : (s.removeRecords c).keypads = s.keypads := rfl
@[simp] theorem State.removeRecords_stations (s : State) (c : Nat) : (s.removeRecords c).stations = s.stations := rfl
@[simp] theorem State.removeRecords_ice (s : State) (c : Nat) : (s.removeRecords c).ice = s.ice := rfl
@[simp] theorem State.removeRecords_poller (s : State) (c : Nat) : (s.removeRecords c).poller = s.poller := rfl
@[simp] theorem State.removeRecords_quay (s : State) (c : Nat) : (s.removeRecords c).quay = s.quay := rfl
@[simp] theorem State.removeRecords_floor (s : State) (c : Nat) : (s.removeRecords c).floor = s.floor := rfl
@[simp] theorem State.removeRecords_office (s : State) (c : Nat) : (s.removeRecords c).office = s.office := rfl
@[simp] theorem State.removeRecords_floorLine (s : State) (c : Nat) : (s.removeRecords c).floorLine = s.floorLine := rfl
@[simp] theorem State.removeRecords_boards (s : State) (c : Nat) : (s.removeRecords c).boards = s.boards := rfl

/-! ## modLot -/

@[simp] theorem State.modLot_pending (s : State) (n : Nat) (f : Lot → Lot) : (s.modLot n f).pending = s.pending := rfl
@[simp] theorem State.modLot_choices (s : State) (n : Nat) (f : Lot → Lot) : (s.modLot n f).choices = s.choices := rfl
@[simp] theorem State.modLot_clock (s : State) (n : Nat) (f : Lot → Lot) : (s.modLot n f).clock = s.clock := rfl
@[simp] theorem State.modLot_op (s : State) (n : Nat) (f : Lot → Lot) : (s.modLot n f).op = s.op := rfl
@[simp] theorem State.modLot_hall (s : State) (n : Nat) (f : Lot → Lot) : (s.modLot n f).hall = s.hall := rfl
@[simp] theorem State.modLot_noticeLevel (s : State) (n : Nat) (f : Lot → Lot) : (s.modLot n f).noticeLevel = s.noticeLevel := rfl
@[simp] theorem State.modLot_latches (s : State) (n : Nat) (f : Lot → Lot) : (s.modLot n f).latches = s.latches := rfl
@[simp] theorem State.modLot_bank (s : State) (n : Nat) (f : Lot → Lot) : (s.modLot n f).bank = s.bank := rfl
@[simp] theorem State.modLot_queue (s : State) (n : Nat) (f : Lot → Lot) : (s.modLot n f).queue = s.queue := rfl
@[simp] theorem State.modLot_lotStore (s : State) (n : Nat) (f : Lot → Lot) : (s.modLot n f).lotStore = { s.lotStore with lots := s.lotStore.lots.modify n f } := rfl
@[simp] theorem State.modLot_rings (s : State) (n : Nat) (f : Lot → Lot) : (s.modLot n f).rings = s.rings := rfl
@[simp] theorem State.modLot_species (s : State) (n : Nat) (f : Lot → Lot) : (s.modLot n f).species = s.species := rfl
@[simp] theorem State.modLot_profiles (s : State) (n : Nat) (f : Lot → Lot) : (s.modLot n f).profiles = s.profiles := rfl
@[simp] theorem State.modLot_crateTypes (s : State) (n : Nat) (f : Lot → Lot) : (s.modLot n f).crateTypes = s.crateTypes := rfl
@[simp] theorem State.modLot_keypads (s : State) (n : Nat) (f : Lot → Lot) : (s.modLot n f).keypads = s.keypads := rfl
@[simp] theorem State.modLot_stations (s : State) (n : Nat) (f : Lot → Lot) : (s.modLot n f).stations = s.stations := rfl
@[simp] theorem State.modLot_ice (s : State) (n : Nat) (f : Lot → Lot) : (s.modLot n f).ice = s.ice := rfl
@[simp] theorem State.modLot_poller (s : State) (n : Nat) (f : Lot → Lot) : (s.modLot n f).poller = s.poller := rfl
@[simp] theorem State.modLot_quay (s : State) (n : Nat) (f : Lot → Lot) : (s.modLot n f).quay = s.quay := rfl
@[simp] theorem State.modLot_floor (s : State) (n : Nat) (f : Lot → Lot) : (s.modLot n f).floor = s.floor := rfl
@[simp] theorem State.modLot_office (s : State) (n : Nat) (f : Lot → Lot) : (s.modLot n f).office = s.office := rfl
@[simp] theorem State.modLot_floorLine (s : State) (n : Nat) (f : Lot → Lot) : (s.modLot n f).floorLine = s.floorLine := rfl
@[simp] theorem State.modLot_boards (s : State) (n : Nat) (f : Lot → Lot) : (s.modLot n f).boards = s.boards := rfl

/-! ## dropLot -/

@[simp] theorem State.dropLot_pending (s : State) (n : Nat) : (s.dropLot n).pending = s.pending := rfl
@[simp] theorem State.dropLot_choices (s : State) (n : Nat) : (s.dropLot n).choices = s.choices := rfl
@[simp] theorem State.dropLot_clock (s : State) (n : Nat) : (s.dropLot n).clock = s.clock := rfl
@[simp] theorem State.dropLot_op (s : State) (n : Nat) : (s.dropLot n).op = s.op := rfl
@[simp] theorem State.dropLot_hall (s : State) (n : Nat) : (s.dropLot n).hall = s.hall := rfl
@[simp] theorem State.dropLot_noticeLevel (s : State) (n : Nat) : (s.dropLot n).noticeLevel = s.noticeLevel := rfl
@[simp] theorem State.dropLot_latches (s : State) (n : Nat) : (s.dropLot n).latches = s.latches := rfl
@[simp] theorem State.dropLot_bank (s : State) (n : Nat) : (s.dropLot n).bank = s.bank := rfl
@[simp] theorem State.dropLot_queue (s : State) (n : Nat) : (s.dropLot n).queue = s.queue := rfl
@[simp] theorem State.dropLot_lotStore (s : State) (n : Nat) : (s.dropLot n).lotStore = { s.lotStore with lots := s.lotStore.lots.erase n } := rfl
@[simp] theorem State.dropLot_rings (s : State) (n : Nat) : (s.dropLot n).rings = s.rings := rfl
@[simp] theorem State.dropLot_species (s : State) (n : Nat) : (s.dropLot n).species = s.species := rfl
@[simp] theorem State.dropLot_profiles (s : State) (n : Nat) : (s.dropLot n).profiles = s.profiles := rfl
@[simp] theorem State.dropLot_crateTypes (s : State) (n : Nat) : (s.dropLot n).crateTypes = s.crateTypes := rfl
@[simp] theorem State.dropLot_keypads (s : State) (n : Nat) : (s.dropLot n).keypads = s.keypads := rfl
@[simp] theorem State.dropLot_stations (s : State) (n : Nat) : (s.dropLot n).stations = s.stations := rfl
@[simp] theorem State.dropLot_ice (s : State) (n : Nat) : (s.dropLot n).ice = s.ice := rfl
@[simp] theorem State.dropLot_poller (s : State) (n : Nat) : (s.dropLot n).poller = s.poller := rfl
@[simp] theorem State.dropLot_quay (s : State) (n : Nat) : (s.dropLot n).quay = s.quay := rfl
@[simp] theorem State.dropLot_floor (s : State) (n : Nat) : (s.dropLot n).floor = s.floor := rfl
@[simp] theorem State.dropLot_office (s : State) (n : Nat) : (s.dropLot n).office = s.office := rfl
@[simp] theorem State.dropLot_floorLine (s : State) (n : Nat) : (s.dropLot n).floorLine = s.floorLine := rfl
@[simp] theorem State.dropLot_boards (s : State) (n : Nat) : (s.dropLot n).boards = s.boards := rfl

/-! ## reserveLot -/

@[simp] theorem State.reserveLot_pending (s : State) : (s.reserveLot).pending = s.pending := rfl
@[simp] theorem State.reserveLot_choices (s : State) : (s.reserveLot).choices = s.choices := rfl
@[simp] theorem State.reserveLot_clock (s : State) : (s.reserveLot).clock = s.clock := rfl
@[simp] theorem State.reserveLot_op (s : State) : (s.reserveLot).op = s.op := rfl
@[simp] theorem State.reserveLot_hall (s : State) : (s.reserveLot).hall = s.hall := rfl
@[simp] theorem State.reserveLot_noticeLevel (s : State) : (s.reserveLot).noticeLevel = s.noticeLevel := rfl
@[simp] theorem State.reserveLot_latches (s : State) : (s.reserveLot).latches = s.latches := rfl
@[simp] theorem State.reserveLot_bank (s : State) : (s.reserveLot).bank = s.bank := rfl
@[simp] theorem State.reserveLot_queue (s : State) : (s.reserveLot).queue = s.queue := rfl
@[simp] theorem State.reserveLot_lotStore (s : State) : (s.reserveLot).lotStore = { s.lotStore with reserved := s.lotStore.reserved + 1 } := rfl
@[simp] theorem State.reserveLot_rings (s : State) : (s.reserveLot).rings = s.rings := rfl
@[simp] theorem State.reserveLot_species (s : State) : (s.reserveLot).species = s.species := rfl
@[simp] theorem State.reserveLot_profiles (s : State) : (s.reserveLot).profiles = s.profiles := rfl
@[simp] theorem State.reserveLot_crateTypes (s : State) : (s.reserveLot).crateTypes = s.crateTypes := rfl
@[simp] theorem State.reserveLot_keypads (s : State) : (s.reserveLot).keypads = s.keypads := rfl
@[simp] theorem State.reserveLot_stations (s : State) : (s.reserveLot).stations = s.stations := rfl
@[simp] theorem State.reserveLot_ice (s : State) : (s.reserveLot).ice = s.ice := rfl
@[simp] theorem State.reserveLot_poller (s : State) : (s.reserveLot).poller = s.poller := rfl
@[simp] theorem State.reserveLot_quay (s : State) : (s.reserveLot).quay = s.quay := rfl
@[simp] theorem State.reserveLot_floor (s : State) : (s.reserveLot).floor = s.floor := rfl
@[simp] theorem State.reserveLot_office (s : State) : (s.reserveLot).office = s.office := rfl
@[simp] theorem State.reserveLot_floorLine (s : State) : (s.reserveLot).floorLine = s.floorLine := rfl
@[simp] theorem State.reserveLot_boards (s : State) : (s.reserveLot).boards = s.boards := rfl

/-! ## unreserveLot -/

@[simp] theorem State.unreserveLot_pending (s : State) : (s.unreserveLot).pending = s.pending := rfl
@[simp] theorem State.unreserveLot_choices (s : State) : (s.unreserveLot).choices = s.choices := rfl
@[simp] theorem State.unreserveLot_clock (s : State) : (s.unreserveLot).clock = s.clock := rfl
@[simp] theorem State.unreserveLot_op (s : State) : (s.unreserveLot).op = s.op := rfl
@[simp] theorem State.unreserveLot_hall (s : State) : (s.unreserveLot).hall = s.hall := rfl
@[simp] theorem State.unreserveLot_noticeLevel (s : State) : (s.unreserveLot).noticeLevel = s.noticeLevel := rfl
@[simp] theorem State.unreserveLot_latches (s : State) : (s.unreserveLot).latches = s.latches := rfl
@[simp] theorem State.unreserveLot_bank (s : State) : (s.unreserveLot).bank = s.bank := rfl
@[simp] theorem State.unreserveLot_queue (s : State) : (s.unreserveLot).queue = s.queue := rfl
@[simp] theorem State.unreserveLot_lotStore (s : State) : (s.unreserveLot).lotStore = { s.lotStore with reserved := s.lotStore.reserved - 1 } := rfl
@[simp] theorem State.unreserveLot_rings (s : State) : (s.unreserveLot).rings = s.rings := rfl
@[simp] theorem State.unreserveLot_species (s : State) : (s.unreserveLot).species = s.species := rfl
@[simp] theorem State.unreserveLot_profiles (s : State) : (s.unreserveLot).profiles = s.profiles := rfl
@[simp] theorem State.unreserveLot_crateTypes (s : State) : (s.unreserveLot).crateTypes = s.crateTypes := rfl
@[simp] theorem State.unreserveLot_keypads (s : State) : (s.unreserveLot).keypads = s.keypads := rfl
@[simp] theorem State.unreserveLot_stations (s : State) : (s.unreserveLot).stations = s.stations := rfl
@[simp] theorem State.unreserveLot_ice (s : State) : (s.unreserveLot).ice = s.ice := rfl
@[simp] theorem State.unreserveLot_poller (s : State) : (s.unreserveLot).poller = s.poller := rfl
@[simp] theorem State.unreserveLot_quay (s : State) : (s.unreserveLot).quay = s.quay := rfl
@[simp] theorem State.unreserveLot_floor (s : State) : (s.unreserveLot).floor = s.floor := rfl
@[simp] theorem State.unreserveLot_office (s : State) : (s.unreserveLot).office = s.office := rfl
@[simp] theorem State.unreserveLot_floorLine (s : State) : (s.unreserveLot).floorLine = s.floorLine := rfl
@[simp] theorem State.unreserveLot_boards (s : State) : (s.unreserveLot).boards = s.boards := rfl

/-! ## setPoller -/

@[simp] theorem State.setPoller_pending (s : State) (p : Poller) : (s.setPoller p).pending = s.pending := rfl
@[simp] theorem State.setPoller_choices (s : State) (p : Poller) : (s.setPoller p).choices = s.choices := rfl
@[simp] theorem State.setPoller_clock (s : State) (p : Poller) : (s.setPoller p).clock = s.clock := rfl
@[simp] theorem State.setPoller_op (s : State) (p : Poller) : (s.setPoller p).op = s.op := rfl
@[simp] theorem State.setPoller_hall (s : State) (p : Poller) : (s.setPoller p).hall = s.hall := rfl
@[simp] theorem State.setPoller_noticeLevel (s : State) (p : Poller) : (s.setPoller p).noticeLevel = s.noticeLevel := rfl
@[simp] theorem State.setPoller_latches (s : State) (p : Poller) : (s.setPoller p).latches = s.latches := rfl
@[simp] theorem State.setPoller_bank (s : State) (p : Poller) : (s.setPoller p).bank = s.bank := rfl
@[simp] theorem State.setPoller_queue (s : State) (p : Poller) : (s.setPoller p).queue = s.queue := rfl
@[simp] theorem State.setPoller_lotStore (s : State) (p : Poller) : (s.setPoller p).lotStore = s.lotStore := rfl
@[simp] theorem State.setPoller_rings (s : State) (p : Poller) : (s.setPoller p).rings = s.rings := rfl
@[simp] theorem State.setPoller_species (s : State) (p : Poller) : (s.setPoller p).species = s.species := rfl
@[simp] theorem State.setPoller_profiles (s : State) (p : Poller) : (s.setPoller p).profiles = s.profiles := rfl
@[simp] theorem State.setPoller_crateTypes (s : State) (p : Poller) : (s.setPoller p).crateTypes = s.crateTypes := rfl
@[simp] theorem State.setPoller_keypads (s : State) (p : Poller) : (s.setPoller p).keypads = s.keypads := rfl
@[simp] theorem State.setPoller_stations (s : State) (p : Poller) : (s.setPoller p).stations = s.stations := rfl
@[simp] theorem State.setPoller_ice (s : State) (p : Poller) : (s.setPoller p).ice = s.ice := rfl
@[simp] theorem State.setPoller_poller (s : State) (p : Poller) : (s.setPoller p).poller = p := rfl
@[simp] theorem State.setPoller_quay (s : State) (p : Poller) : (s.setPoller p).quay = s.quay := rfl
@[simp] theorem State.setPoller_floor (s : State) (p : Poller) : (s.setPoller p).floor = s.floor := rfl
@[simp] theorem State.setPoller_office (s : State) (p : Poller) : (s.setPoller p).office = s.office := rfl
@[simp] theorem State.setPoller_floorLine (s : State) (p : Poller) : (s.setPoller p).floorLine = s.floorLine := rfl
@[simp] theorem State.setPoller_boards (s : State) (p : Poller) : (s.setPoller p).boards = s.boards := rfl

/-! ## setIce -/

@[simp] theorem State.setIce_pending (s : State) (p : IcePlant) : (s.setIce p).pending = s.pending := rfl
@[simp] theorem State.setIce_choices (s : State) (p : IcePlant) : (s.setIce p).choices = s.choices := rfl
@[simp] theorem State.setIce_clock (s : State) (p : IcePlant) : (s.setIce p).clock = s.clock := rfl
@[simp] theorem State.setIce_op (s : State) (p : IcePlant) : (s.setIce p).op = s.op := rfl
@[simp] theorem State.setIce_hall (s : State) (p : IcePlant) : (s.setIce p).hall = s.hall := rfl
@[simp] theorem State.setIce_noticeLevel (s : State) (p : IcePlant) : (s.setIce p).noticeLevel = s.noticeLevel := rfl
@[simp] theorem State.setIce_latches (s : State) (p : IcePlant) : (s.setIce p).latches = s.latches := rfl
@[simp] theorem State.setIce_bank (s : State) (p : IcePlant) : (s.setIce p).bank = s.bank := rfl
@[simp] theorem State.setIce_queue (s : State) (p : IcePlant) : (s.setIce p).queue = s.queue := rfl
@[simp] theorem State.setIce_lotStore (s : State) (p : IcePlant) : (s.setIce p).lotStore = s.lotStore := rfl
@[simp] theorem State.setIce_rings (s : State) (p : IcePlant) : (s.setIce p).rings = s.rings := rfl
@[simp] theorem State.setIce_species (s : State) (p : IcePlant) : (s.setIce p).species = s.species := rfl
@[simp] theorem State.setIce_profiles (s : State) (p : IcePlant) : (s.setIce p).profiles = s.profiles := rfl
@[simp] theorem State.setIce_crateTypes (s : State) (p : IcePlant) : (s.setIce p).crateTypes = s.crateTypes := rfl
@[simp] theorem State.setIce_keypads (s : State) (p : IcePlant) : (s.setIce p).keypads = s.keypads := rfl
@[simp] theorem State.setIce_stations (s : State) (p : IcePlant) : (s.setIce p).stations = s.stations := rfl
@[simp] theorem State.setIce_ice (s : State) (p : IcePlant) : (s.setIce p).ice = p := rfl
@[simp] theorem State.setIce_poller (s : State) (p : IcePlant) : (s.setIce p).poller = s.poller := rfl
@[simp] theorem State.setIce_quay (s : State) (p : IcePlant) : (s.setIce p).quay = s.quay := rfl
@[simp] theorem State.setIce_floor (s : State) (p : IcePlant) : (s.setIce p).floor = s.floor := rfl
@[simp] theorem State.setIce_office (s : State) (p : IcePlant) : (s.setIce p).office = s.office := rfl
@[simp] theorem State.setIce_floorLine (s : State) (p : IcePlant) : (s.setIce p).floorLine = s.floorLine := rfl
@[simp] theorem State.setIce_boards (s : State) (p : IcePlant) : (s.setIce p).boards = s.boards := rfl

/-! ## setScrew -/

@[simp] theorem State.setScrew_pending (s : State) (x : Screw) : (s.setScrew x).pending = s.pending := rfl
@[simp] theorem State.setScrew_choices (s : State) (x : Screw) : (s.setScrew x).choices = s.choices := rfl
@[simp] theorem State.setScrew_clock (s : State) (x : Screw) : (s.setScrew x).clock = s.clock := rfl
@[simp] theorem State.setScrew_op (s : State) (x : Screw) : (s.setScrew x).op = s.op := rfl
@[simp] theorem State.setScrew_hall (s : State) (x : Screw) : (s.setScrew x).hall = s.hall := rfl
@[simp] theorem State.setScrew_noticeLevel (s : State) (x : Screw) : (s.setScrew x).noticeLevel = s.noticeLevel := rfl
@[simp] theorem State.setScrew_latches (s : State) (x : Screw) : (s.setScrew x).latches = s.latches := rfl
@[simp] theorem State.setScrew_bank (s : State) (x : Screw) : (s.setScrew x).bank = s.bank := rfl
@[simp] theorem State.setScrew_queue (s : State) (x : Screw) : (s.setScrew x).queue = s.queue := rfl
@[simp] theorem State.setScrew_lotStore (s : State) (x : Screw) : (s.setScrew x).lotStore = s.lotStore := rfl
@[simp] theorem State.setScrew_rings (s : State) (x : Screw) : (s.setScrew x).rings = s.rings := rfl
@[simp] theorem State.setScrew_species (s : State) (x : Screw) : (s.setScrew x).species = s.species := rfl
@[simp] theorem State.setScrew_profiles (s : State) (x : Screw) : (s.setScrew x).profiles = s.profiles := rfl
@[simp] theorem State.setScrew_crateTypes (s : State) (x : Screw) : (s.setScrew x).crateTypes = s.crateTypes := rfl
@[simp] theorem State.setScrew_keypads (s : State) (x : Screw) : (s.setScrew x).keypads = s.keypads := rfl
@[simp] theorem State.setScrew_stations (s : State) (x : Screw) : (s.setScrew x).stations = s.stations := rfl
@[simp] theorem State.setScrew_ice (s : State) (x : Screw) : (s.setScrew x).ice = { s.ice with screw := x } := rfl
@[simp] theorem State.setScrew_poller (s : State) (x : Screw) : (s.setScrew x).poller = s.poller := rfl
@[simp] theorem State.setScrew_quay (s : State) (x : Screw) : (s.setScrew x).quay = s.quay := rfl
@[simp] theorem State.setScrew_floor (s : State) (x : Screw) : (s.setScrew x).floor = s.floor := rfl
@[simp] theorem State.setScrew_office (s : State) (x : Screw) : (s.setScrew x).office = s.office := rfl
@[simp] theorem State.setScrew_floorLine (s : State) (x : Screw) : (s.setScrew x).floorLine = s.floorLine := rfl
@[simp] theorem State.setScrew_boards (s : State) (x : Screw) : (s.setScrew x).boards = s.boards := rfl

/-! ## uncarry -/

@[simp] theorem State.uncarry_pending (s : State) : (s.uncarry).pending = s.pending := rfl
@[simp] theorem State.uncarry_choices (s : State) : (s.uncarry).choices = s.choices := rfl
@[simp] theorem State.uncarry_clock (s : State) : (s.uncarry).clock = s.clock := rfl
@[simp] theorem State.uncarry_op (s : State) : (s.uncarry).op = s.op := rfl
@[simp] theorem State.uncarry_hall (s : State) : (s.uncarry).hall = s.hall := rfl
@[simp] theorem State.uncarry_noticeLevel (s : State) : (s.uncarry).noticeLevel = s.noticeLevel := rfl
@[simp] theorem State.uncarry_latches (s : State) : (s.uncarry).latches = s.latches := rfl
@[simp] theorem State.uncarry_bank (s : State) : (s.uncarry).bank = s.bank := rfl
@[simp] theorem State.uncarry_queue (s : State) : (s.uncarry).queue = s.queue := rfl
@[simp] theorem State.uncarry_lotStore (s : State) : (s.uncarry).lotStore = s.lotStore := rfl
@[simp] theorem State.uncarry_rings (s : State) : (s.uncarry).rings = s.rings := rfl
@[simp] theorem State.uncarry_species (s : State) : (s.uncarry).species = s.species := rfl
@[simp] theorem State.uncarry_profiles (s : State) : (s.uncarry).profiles = s.profiles := rfl
@[simp] theorem State.uncarry_crateTypes (s : State) : (s.uncarry).crateTypes = s.crateTypes := rfl
@[simp] theorem State.uncarry_keypads (s : State) : (s.uncarry).keypads = s.keypads := rfl
@[simp] theorem State.uncarry_stations (s : State) : (s.uncarry).stations = s.stations.map (fun x => (x.1, { x.2 with carried := false })) := rfl
@[simp] theorem State.uncarry_ice (s : State) : (s.uncarry).ice = s.ice := rfl
@[simp] theorem State.uncarry_poller (s : State) : (s.uncarry).poller = s.poller := rfl
@[simp] theorem State.uncarry_quay (s : State) : (s.uncarry).quay = s.quay := rfl
@[simp] theorem State.uncarry_floor (s : State) : (s.uncarry).floor = s.floor := rfl
@[simp] theorem State.uncarry_office (s : State) : (s.uncarry).office = s.office := rfl
@[simp] theorem State.uncarry_floorLine (s : State) : (s.uncarry).floorLine = s.floorLine := rfl
@[simp] theorem State.uncarry_boards (s : State) : (s.uncarry).boards = s.boards := rfl

/-! ## hearAll -/

@[simp] theorem State.hearAll_pending (s : State) : (s.hearAll).pending = s.pending := rfl
@[simp] theorem State.hearAll_choices (s : State) : (s.hearAll).choices = s.choices := rfl
@[simp] theorem State.hearAll_clock (s : State) : (s.hearAll).clock = s.clock := rfl
@[simp] theorem State.hearAll_op (s : State) : (s.hearAll).op = s.op := rfl
@[simp] theorem State.hearAll_hall (s : State) : (s.hearAll).hall = s.hall := rfl
@[simp] theorem State.hearAll_noticeLevel (s : State) : (s.hearAll).noticeLevel = s.noticeLevel := rfl
@[simp] theorem State.hearAll_latches (s : State) : (s.hearAll).latches = s.latches := rfl
@[simp] theorem State.hearAll_bank (s : State) : (s.hearAll).bank = s.bank := rfl
@[simp] theorem State.hearAll_queue (s : State) : (s.hearAll).queue = s.queue := rfl
@[simp] theorem State.hearAll_lotStore (s : State) : (s.hearAll).lotStore = s.lotStore := rfl
@[simp] theorem State.hearAll_rings (s : State) : (s.hearAll).rings = s.rings := rfl
@[simp] theorem State.hearAll_species (s : State) : (s.hearAll).species = s.species := rfl
@[simp] theorem State.hearAll_profiles (s : State) : (s.hearAll).profiles = s.profiles := rfl
@[simp] theorem State.hearAll_crateTypes (s : State) : (s.hearAll).crateTypes = s.crateTypes := rfl
@[simp] theorem State.hearAll_keypads (s : State) : (s.hearAll).keypads = s.keypads := rfl
@[simp] theorem State.hearAll_stations (s : State) : (s.hearAll).stations = s.stations.map (fun x => (x.1, { x.2 with lastHeard := some s.clock, age := 0 })) := rfl
@[simp] theorem State.hearAll_ice (s : State) : (s.hearAll).ice = s.ice := rfl
@[simp] theorem State.hearAll_poller (s : State) : (s.hearAll).poller = s.poller := rfl
@[simp] theorem State.hearAll_quay (s : State) : (s.hearAll).quay = s.quay := rfl
@[simp] theorem State.hearAll_floor (s : State) : (s.hearAll).floor = s.floor := rfl
@[simp] theorem State.hearAll_office (s : State) : (s.hearAll).office = s.office := rfl
@[simp] theorem State.hearAll_floorLine (s : State) : (s.hearAll).floorLine = s.floorLine := rfl
@[simp] theorem State.hearAll_boards (s : State) : (s.hearAll).boards = s.boards := rfl

/-! ## slotsReady -/

@[simp] theorem State.slotsReady_pending (s : State) : (s.slotsReady).pending = s.pending := rfl
@[simp] theorem State.slotsReady_choices (s : State) : (s.slotsReady).choices = s.choices := rfl
@[simp] theorem State.slotsReady_clock (s : State) : (s.slotsReady).clock = s.clock := rfl
@[simp] theorem State.slotsReady_op (s : State) : (s.slotsReady).op = s.op := rfl
@[simp] theorem State.slotsReady_hall (s : State) : (s.slotsReady).hall = s.hall := rfl
@[simp] theorem State.slotsReady_noticeLevel (s : State) : (s.slotsReady).noticeLevel = s.noticeLevel := rfl
@[simp] theorem State.slotsReady_latches (s : State) : (s.slotsReady).latches = s.latches := rfl
@[simp] theorem State.slotsReady_bank (s : State) : (s.slotsReady).bank = s.bank := rfl
@[simp] theorem State.slotsReady_queue (s : State) : (s.slotsReady).queue = s.queue := rfl
@[simp] theorem State.slotsReady_lotStore (s : State) : (s.slotsReady).lotStore = s.lotStore := rfl
@[simp] theorem State.slotsReady_rings (s : State) : (s.slotsReady).rings = s.rings := rfl
@[simp] theorem State.slotsReady_species (s : State) : (s.slotsReady).species = s.species := rfl
@[simp] theorem State.slotsReady_profiles (s : State) : (s.slotsReady).profiles = s.profiles := rfl
@[simp] theorem State.slotsReady_crateTypes (s : State) : (s.slotsReady).crateTypes = s.crateTypes := rfl
@[simp] theorem State.slotsReady_keypads (s : State) : (s.slotsReady).keypads = s.keypads := rfl
@[simp] theorem State.slotsReady_stations (s : State) : (s.slotsReady).stations = s.stations := rfl
@[simp] theorem State.slotsReady_ice (s : State) : (s.slotsReady).ice = s.ice := rfl
@[simp] theorem State.slotsReady_poller (s : State) : (s.slotsReady).poller = s.poller := rfl
@[simp] theorem State.slotsReady_quay (s : State) : (s.slotsReady).quay = s.quay := rfl
@[simp] theorem State.slotsReady_floor (s : State) : (s.slotsReady).floor = s.floor := rfl
@[simp] theorem State.slotsReady_office (s : State) : (s.slotsReady).office = s.office := rfl
@[simp] theorem State.slotsReady_floorLine (s : State) : (s.slotsReady).floorLine = s.floorLine := rfl
@[simp] theorem State.slotsReady_boards (s : State) : (s.slotsReady).boards = { s.boards with slots := s.boards.slots.map BoardSlot.recover } := rfl

/-! ## setHall -/

@[simp] theorem State.setHall_pending (s : State) (h : Hall) : (s.setHall h).pending = s.pending := rfl
@[simp] theorem State.setHall_choices (s : State) (h : Hall) : (s.setHall h).choices = s.choices := rfl
@[simp] theorem State.setHall_clock (s : State) (h : Hall) : (s.setHall h).clock = s.clock := rfl
@[simp] theorem State.setHall_op (s : State) (h : Hall) : (s.setHall h).op = s.op := rfl
@[simp] theorem State.setHall_hall (s : State) (h : Hall) : (s.setHall h).hall = some h := rfl
@[simp] theorem State.setHall_noticeLevel (s : State) (h : Hall) : (s.setHall h).noticeLevel = h.noticeLevel := rfl
@[simp] theorem State.setHall_latches (s : State) (h : Hall) : (s.setHall h).latches = s.latches := rfl
@[simp] theorem State.setHall_bank (s : State) (h : Hall) : (s.setHall h).bank = s.bank := rfl
@[simp] theorem State.setHall_queue (s : State) (h : Hall) : (s.setHall h).queue = s.queue := rfl
@[simp] theorem State.setHall_lotStore (s : State) (h : Hall) : (s.setHall h).lotStore = s.lotStore := rfl
@[simp] theorem State.setHall_rings (s : State) (h : Hall) : (s.setHall h).rings = s.rings := rfl
@[simp] theorem State.setHall_species (s : State) (h : Hall) : (s.setHall h).species = s.species := rfl
@[simp] theorem State.setHall_profiles (s : State) (h : Hall) : (s.setHall h).profiles = s.profiles := rfl
@[simp] theorem State.setHall_crateTypes (s : State) (h : Hall) : (s.setHall h).crateTypes = s.crateTypes := rfl
@[simp] theorem State.setHall_keypads (s : State) (h : Hall) : (s.setHall h).keypads = s.keypads := rfl
@[simp] theorem State.setHall_stations (s : State) (h : Hall) : (s.setHall h).stations = s.stations := rfl
@[simp] theorem State.setHall_ice (s : State) (h : Hall) : (s.setHall h).ice = s.ice := rfl
@[simp] theorem State.setHall_poller (s : State) (h : Hall) : (s.setHall h).poller = s.poller := rfl
@[simp] theorem State.setHall_quay (s : State) (h : Hall) : (s.setHall h).quay = s.quay := rfl
@[simp] theorem State.setHall_floor (s : State) (h : Hall) : (s.setHall h).floor = s.floor := rfl
@[simp] theorem State.setHall_office (s : State) (h : Hall) : (s.setHall h).office = s.office := rfl
@[simp] theorem State.setHall_boards (s : State) (h : Hall) : (s.setHall h).boards = s.boards := rfl

/-! ## withPending -/

@[simp] theorem State.withPending_pending (s : State) (q : List Instr) : (s.withPending q).pending = q := rfl
@[simp] theorem State.withPending_choices (s : State) (q : List Instr) : (s.withPending q).choices = s.choices := rfl
@[simp] theorem State.withPending_clock (s : State) (q : List Instr) : (s.withPending q).clock = s.clock := rfl
@[simp] theorem State.withPending_op (s : State) (q : List Instr) : (s.withPending q).op = s.op := rfl
@[simp] theorem State.withPending_hall (s : State) (q : List Instr) : (s.withPending q).hall = s.hall := rfl
@[simp] theorem State.withPending_noticeLevel (s : State) (q : List Instr) : (s.withPending q).noticeLevel = s.noticeLevel := rfl
@[simp] theorem State.withPending_latches (s : State) (q : List Instr) : (s.withPending q).latches = s.latches := rfl
@[simp] theorem State.withPending_bank (s : State) (q : List Instr) : (s.withPending q).bank = s.bank := rfl
@[simp] theorem State.withPending_queue (s : State) (q : List Instr) : (s.withPending q).queue = s.queue := rfl
@[simp] theorem State.withPending_lotStore (s : State) (q : List Instr) : (s.withPending q).lotStore = s.lotStore := rfl
@[simp] theorem State.withPending_rings (s : State) (q : List Instr) : (s.withPending q).rings = s.rings := rfl
@[simp] theorem State.withPending_species (s : State) (q : List Instr) : (s.withPending q).species = s.species := rfl
@[simp] theorem State.withPending_profiles (s : State) (q : List Instr) : (s.withPending q).profiles = s.profiles := rfl
@[simp] theorem State.withPending_crateTypes (s : State) (q : List Instr) : (s.withPending q).crateTypes = s.crateTypes := rfl
@[simp] theorem State.withPending_keypads (s : State) (q : List Instr) : (s.withPending q).keypads = s.keypads := rfl
@[simp] theorem State.withPending_stations (s : State) (q : List Instr) : (s.withPending q).stations = s.stations := rfl
@[simp] theorem State.withPending_ice (s : State) (q : List Instr) : (s.withPending q).ice = s.ice := rfl
@[simp] theorem State.withPending_poller (s : State) (q : List Instr) : (s.withPending q).poller = s.poller := rfl
@[simp] theorem State.withPending_quay (s : State) (q : List Instr) : (s.withPending q).quay = s.quay := rfl
@[simp] theorem State.withPending_floor (s : State) (q : List Instr) : (s.withPending q).floor = s.floor := rfl
@[simp] theorem State.withPending_office (s : State) (q : List Instr) : (s.withPending q).office = s.office := rfl
@[simp] theorem State.withPending_floorLine (s : State) (q : List Instr) : (s.withPending q).floorLine = s.floorLine := rfl
@[simp] theorem State.withPending_boards (s : State) (q : List Instr) : (s.withPending q).boards = s.boards := rfl

end Sys2Proof.Machine
end

