-- ==== Sys2Proof/Laws/Tables.lean ====
section
/-! SUPPORT. What the operations over tables do: reading after a write, and the canonical form kept. -/

namespace Sys2Proof.Machine

variable {α : Type}

@[simp] theorem Table.find_nil (i : Nat) : Table.find ([] : Table α) i = none := rfl

/-- A written entry is read back; every other index reads as before. -/
theorem Table.find_set (t : Table α) (i j : Nat) (v : α) : (t.set i v).find j = if j = i then some v else t.find j := by
  induction t with
  | nil => simp [Table.set, Table.find, eq_comm]
  | cons x t ih =>
    obtain ⟨k, w⟩ := x
    simp only [Table.set]
    split_ifs with h1 h2 h3 <;> simp only [Table.find, ih] <;> split_ifs <;> first | rfl | omega

@[simp] theorem Table.find_set_self (t : Table α) (i : Nat) (v : α) : (t.set i v).find i = some v := by
  simp [Table.find_set]

/-- An erased index of a table in canonical form is empty; every other index reads as before. -/
theorem Table.find_of_lt (t : Table α) (i : Nat) (h : ∀ x ∈ t, i < x.1) : t.find i = none := by
  induction t with
  | nil => rfl
  | cons x t ih =>
    obtain ⟨k, w⟩ := x
    have hk := h (k, w) (by simp)
    simp only [Table.find]
    rw [if_neg (by simp at hk; omega)]
    exact ih (fun y hy => h y (by simp [hy]))

theorem Table.find_erase (t : Table α) (i j : Nat) (h : Table.Sorted t) :
    (t.erase i).find j = if j = i then none else t.find j := by
  induction t with
  | nil => simp [Table.erase]
  | cons x t ih =>
    obtain ⟨k, w⟩ := x
    obtain ⟨hx, ht⟩ := List.pairwise_cons.1 h
    simp only [Table.erase]
    split_ifs with h1 h2
    · subst h1; subst h2; exact Table.find_of_lt t _ hx
    · simp only [Table.find]; rw [if_neg (by omega)]
    · simp only [Table.find, ih ht]; split_ifs <;> first | rfl | omega
    · simp only [Table.find, ih ht]; split_ifs <;> rfl

/-- A modified entry reads as changed; every other index reads as before. -/
theorem Table.find_modify (t : Table α) (i j : Nat) (f : α → α) :
    (t.modify i f).find j = if j = i then (t.find j).map f else t.find j := by
  induction t with
  | nil => simp [Table.modify]
  | cons x t ih =>
    obtain ⟨k, w⟩ := x
    simp only [Table.modify]
    split_ifs with h1 h2 <;> simp only [Table.find, ih] <;> split_ifs <;> first | rfl | omega

/-- The entries of a written table are the old ones and the new one. -/
theorem Table.mem_set (t : Table α) (i : Nat) (v : α) (x : Nat × α) (h : x ∈ t.set i v) : x = (i, v) ∨ x ∈ t := by
  induction t with
  | nil => simp_all [Table.set]
  | cons y t ih =>
    obtain ⟨k, w⟩ := y
    simp only [Table.set] at h
    split_ifs at h <;> simp only [List.mem_cons] at h ⊢ <;> tauto

theorem Table.mem_erase (t : Table α) (i : Nat) (x : Nat × α) (h : x ∈ t.erase i) : x ∈ t := by
  induction t with
  | nil => simp_all [Table.erase]
  | cons y t ih =>
    obtain ⟨k, w⟩ := y
    simp only [Table.erase] at h
    split_ifs at h <;> simp only [List.mem_cons] at h ⊢ <;> tauto

/-- An entry of a modified table is an old one, or the old one at the index, changed. -/
theorem Table.mem_modify (t : Table α) (i : Nat) (f : α → α) (x : Nat × α) (h : x ∈ t.modify i f) :
    x ∈ t ∨ ∃ v, (i, v) ∈ t ∧ x = (i, f v) := by
  induction t with
  | nil => simp_all [Table.modify]
  | cons y t ih =>
    obtain ⟨k, w⟩ := y
    simp only [Table.modify] at h
    split_ifs at h with hk
    · subst hk
      rcases List.mem_cons.1 h with h | h
      · exact .inr ⟨w, by simp, h⟩
      · exact .inl (by simp [h])
    · rcases List.mem_cons.1 h with h | h
      · exact .inl (by simp [h])
      · rcases ih h with h | ⟨v, hv, h⟩
        · exact .inl (by simp [h])
        · exact .inr ⟨v, by simp [hv], h⟩

theorem Table.sorted_set (t : Table α) (i : Nat) (v : α) (h : Table.Sorted t) : Table.Sorted (t.set i v) := by
  induction t with
  | nil => simp [Table.set, Table.Sorted]
  | cons x t ih =>
    obtain ⟨k, w⟩ := x
    obtain ⟨hx, ht⟩ := List.pairwise_cons.1 h
    simp only [Table.set]
    split_ifs with h1 h2
    · refine List.pairwise_cons.2 ⟨fun y hy => ?_, h⟩
      rcases List.mem_cons.1 hy with rfl | hy
      · exact h1
      · exact lt_trans h1 (hx y hy)
    · subst h2; exact List.pairwise_cons.2 ⟨hx, ht⟩
    · refine List.pairwise_cons.2 ⟨fun y hy => ?_, ih ht⟩
      rcases Table.mem_set t i v y hy with rfl | hy
      · show k < i; omega
      · exact hx y hy

theorem Table.sorted_erase (t : Table α) (i : Nat) (h : Table.Sorted t) : Table.Sorted (t.erase i) := by
  induction t with
  | nil => simp [Table.erase, Table.Sorted]
  | cons x t ih =>
    obtain ⟨k, w⟩ := x
    obtain ⟨hx, ht⟩ := List.pairwise_cons.1 h
    simp only [Table.erase]
    split_ifs
    · exact ht
    · exact List.pairwise_cons.2 ⟨fun y hy => hx y (Table.mem_erase t i y hy), ih ht⟩

/-- Modifying an entry keeps the indices. -/
@[simp] theorem Table.keys_modify (t : Table α) (i : Nat) (f : α → α) : (t.modify i f).map (·.1) = t.map (·.1) := by
  induction t with
  | nil => rfl
  | cons x t ih =>
    obtain ⟨k, w⟩ := x
    simp only [Table.modify]
    split_ifs <;> simp [ih]

/-- The canonical form depends on the indices alone. -/
theorem Table.sorted_iff_keys (t : Table α) : Table.Sorted t ↔ (t.map (·.1)).Pairwise (· < ·) := by
  simp [Table.Sorted, List.pairwise_map]

theorem Table.sorted_modify (t : Table α) (i : Nat) (f : α → α) (h : Table.Sorted t) : Table.Sorted (t.modify i f) := by
  rw [Table.sorted_iff_keys] at *
  rwa [Table.keys_modify]

/-! ## Accounts by number -/

/-- A changed account reads as changed under its number; the change must keep the number. -/
theorem Table.account_modAccount (t : Table Account) (n m : Nat) (f : Account → Account)
    (hf : ∀ a, (f a).number = a.number) :
    (t.modAccount n f).account m = if m = n then (t.account m).map f else t.account m := by
  induction t with
  | nil => simp [Table.modAccount, Table.account]
  | cons x t ih =>
    obtain ⟨k, a⟩ := x
    simp only [Table.modAccount]
    split_ifs with h1 h2 <;> simp only [Table.account, hf, ih] <;> split_ifs <;> first | rfl | omega

@[simp] theorem Table.keys_modAccount (t : Table Account) (n : Nat) (f : Account → Account) :
    (t.modAccount n f).map (·.1) = t.map (·.1) := by
  induction t with
  | nil => rfl
  | cons x t ih =>
    obtain ⟨k, a⟩ := x
    simp only [Table.modAccount]
    split_ifs <;> simp [ih]

theorem Table.sorted_modAccount (t : Table Account) (n : Nat) (f : Account → Account) (h : Table.Sorted t) :
    Table.Sorted (t.modAccount n f) := by
  rw [Table.sorted_iff_keys] at *
  rwa [Table.keys_modAccount]

/-- A found account carries the number it was looked for by. -/
theorem Table.account_number (t : Table Account) (n : Nat) (a : Account) (h : t.account n = some a) : a.number = n := by
  induction t with
  | nil => cases h
  | cons x t ih =>
    obtain ⟨k, b⟩ := x
    simp only [Table.account] at h
    split_ifs at h with hb
    · cases h; exact hb
    · exact ih h

/-! ## The four rings -/

@[simp] theorem Four.get_set_self (x : Four α) (r : RingNo) (v : α) : (x.set r v).get r = v := by cases r <;> rfl

theorem Four.get_set (x : Four α) (r q : RingNo) (v : α) : (x.set r v).get q = if q = r then v else x.get q := by
  cases r <;> cases q <;> rfl

@[simp] theorem Four.get_map {β : Type} (f : α → β) (x : Four α) (r : RingNo) : (x.map f).get r = f (x.get r) := by
  cases r <;> rfl

end Sys2Proof.Machine
end

