-- ==== Sys2Proof/Laws/Ops.lean ====
section
/-! SUPPORT. What the shared operations can do, each said once: free choices, latches, ports, stations and their command
lists, claims and records, one side of a posting, the office service. -/

namespace Sys2Proof.Machine

/-! ## Free choices -/

/-- A choice lies below its number of possibilities, and draws at most one free value. -/
theorem State.choose_spec (s : State) (n : Nat) (h : 0 < n) :
    (s.choose n).1 < n ∧ ((s.choose n).2 = s ∨ (s.choose n).2 = { s with choices := s.choices + 1 }) := by
  unfold State.choose
  split_ifs with h1
  · exact ⟨by simpa using h, .inl rfl⟩
  · exact ⟨Nat.mod_lt _ h, .inr rfl⟩

/-! ## Rings -/

@[simp] theorem State.ring_setRing (s : State) (r q : RingNo) (x : Ring) :
    (s.setRing r x).ring q = if q = r then x else s.ring q := Four.get_set _ _ _ _

@[simp] theorem State.slot_setSlot (s : State) (r q : RingNo) (x : BoardSlot) :
    (s.setSlot r x).slot q = if q = r then x else s.slot q := Four.get_set _ _ _ _

/-! ## Notice latches -/

/-- A notice brings one occurrence into its latch and leaves the others. -/
theorem State.latchAt_latchCause (s : State) (n : Notice) (x : Subject) (c : Option Latch16Cause) (m : Nat) :
    (s.latchCause n x c).latchAt m = if m = n.num then (s.latchAt m).occur s.clock x c else s.latchAt m := by
  simp only [State.latchAt, State.latchCause, Table.find_set]
  split_ifs with h
  · subst h; rfl
  · rfl

theorem State.latchAt_latch (s : State) (n : Notice) (x : Subject) (m : Nat) :
    (s.latch n x).latchAt m = if m = n.num then (s.latchAt m).occur s.clock x none else s.latchAt m :=
  s.latchAt_latchCause n x none m

/-- Only the latches change. -/
theorem State.latch_eq (s : State) (n : Notice) (x : Subject) : { s.latch n x with latches := s.latches } = s := rfl

/-- An occurrence leaves a pending latch whose count has risen, at most to 255, and keeps the first subject and time. -/
theorem Latch.occur_spec (l : Latch) (now : Stamp) (x : Subject) (c : Option Latch16Cause) :
    (l.occur now x c).pending = true ∧ (l.occur now x c).count = min 255 (l.count + 1)
      ∧ (l.pending = true → (l.occur now x c).subject = l.subject ∧ (l.occur now x c).time = l.time) := by
  unfold Latch.occur
  split_ifs with h <;> simp [h]

/-! ## Ports -/

/-- A frame placed on an idle line is on the line; on a busy line it waits in the stage. Nothing else of the port
changes. -/
theorem Port.place_spec (p : Port) (f : Frame) :
    (p.onLine = none → p.place f = { p with onLine := some f })
      ∧ (p.onLine ≠ none → p.place f = { p with stage := some f }) := by
  unfold Port.place
  cases p.onLine <;> simp

@[simp] theorem Port.place_rx (p : Port) (f : Frame) : (p.place f).rx = p.rx := by
  unfold Port.place; cases p.onLine <;> rfl

theorem bump_eq (n : Nat) : bump n = min 65535 (n + 1) := by
  unfold bump; split_ifs <;> omega

/-! ## Stations -/

@[simp] theorem State.station_modStation (s : State) (a b : Nat) (f : Station → Station) :
    (s.modStation a f).station b = if b = a then (s.station b).map f else s.station b :=
  Table.find_modify _ _ _ _

/-- Changing a station's context keeps its record. -/
theorem State.setChannel_spec (s : State) (a b : Nat) (ch : Channel) :
    (s.setChannel a ch).weighAt b
      = if b = a then (s.weighAt b).map (fun x => (x.1, ch)) else s.weighAt b := by
  simp only [State.weighAt, State.setChannel, State.station_modStation]
  split_ifs with h
  · cases s.station b with
    | none => rfl
    | some st =>
      simp only [Option.map_some, Station.withDevice]
      cases st.device <;> rfl
  · rfl

theorem State.setChute_spec (s : State) (a b : Nat) (c : Chute) :
    (s.setChute a c).chuteAt b = if b = a then (s.chuteAt b).map (fun x => (x.1, c)) else s.chuteAt b := by
  simp only [State.chuteAt, State.setChute, State.station_modStation]
  split_ifs with h
  · cases s.station b with
    | none => rfl
    | some st =>
      simp only [Option.map_some, Station.withDevice]
      cases st.device <;> rfl
  · rfl

theorem State.setGate_spec (s : State) (a b : Nat) (g : Gate) :
    (s.setGate a g).gateAt b = if b = a then (s.gateAt b).map (fun x => (x.1, g)) else s.gateAt b := by
  simp only [State.gateAt, State.setGate, State.station_modStation]
  split_ifs with h
  · cases s.station b with
    | none => rfl
    | some st =>
      simp only [Option.map_some, Station.withDevice]
      cases st.device <;> rfl
  · rfl

/-- Placing a command changes a station's list and mark alone; a list of at most two commands stays so; with room the
command joins at the end and none is dropped. -/
theorem Station.place_spec (st : Station) (c : QuayCommand) :
    { (st.place c).1 with commands := st.commands, carried := st.carried } = st
      ∧ (st.commands.length ≤ 2 → (st.place c).1.commands.length ≤ 2)
      ∧ (st.commands.length < 2 → (st.place c).1.commands = st.commands ++ [c] ∧ (st.place c).2 = false) := by
  obtain ⟨en, dev, live, misses, cmds, lh, age, car⟩ := st
  rcases cmds with - | ⟨x, - | ⟨y, rest⟩⟩
  · simp [Station.place]
  · simp [Station.place]
  · simp only [Station.place]
    split_ifs <;> simp

/-- A command placed at a station changes that station's list and the latch of OUTBOUND_DROPPED alone. -/
theorem State.placeCommand_eq (s : State) (a : Nat) (c : QuayCommand) :
    { s.placeCommand a c with stations := s.stations, latches := s.latches } = s := by
  unfold State.placeCommand
  cases s.station a with
  | none => rfl
  | some st => simp only; split_ifs <;> rfl

/-- With room, the command waits at the end of an enabled station's list, and nothing else has changed. -/
theorem State.placeCommand_room (s : State) (a : Nat) (c : QuayCommand) (st : Station) (h : s.station a = some st)
    (he : st.enabled = true) (hr : st.commands.length < 2) :
    s.placeCommand a c = s.modStation a (fun x => (x.place c).1)
      ∧ ((s.placeCommand a c).station a) = some { st with commands := st.commands ++ [c] } := by
  have hp := (Station.place_spec st c).2.2 hr
  have h1 : s.placeCommand a c = s.modStation a (fun x => (x.place c).1) := by
    simp [State.placeCommand, h, he, hp.2]
  refine ⟨h1, ?_⟩
  rw [h1, State.station_modStation, if_pos rfl, h]
  obtain ⟨en, dev, live, misses, cmds, lh, age, car⟩ := st
  rcases cmds with - | ⟨x, - | ⟨y, rest⟩⟩
  · rfl
  · rfl
  · simp at hr

/-! ## The record queue -/

/-- A record is written behind the others with the next number, and uses one claim; of the rest only the latches may
change. -/
theorem State.writeRecordAt_spec (s : State) (b : RecordBody) (at_ : Stamp) :
    (s.writeRecordAt b at_).queue
        = { records := s.queue.records ++ [{ number := s.queue.next, body := b, at_ := at_ }],
            owed := s.queue.owed - 1, next := nextNumber s.queue.next }
      ∧ { s.writeRecordAt b at_ with queue := s.queue, latches := s.latches } = s := by
  unfold State.writeRecordAt
  simp only
  split_ifs <;> exact ⟨rfl, rfl⟩

/-- Releasing claims lowers the owed count and, where there is one to release, tells the stalled rings; nothing else
changes. -/
theorem State.releaseClaims_spec (s : State) (c : Nat) :
    (s.releaseClaims c).queue = { s.queue with owed := s.queue.owed - c }
      ∧ (∀ r, (s.releaseClaims c).ring r = (s.ring r).tellFreed c)
      ∧ { s.releaseClaims c with queue := s.queue, rings := s.rings } = s :=
  ⟨rfl, fun r => Four.get_map _ _ r, rfl⟩

/-- A release of no claims changes nothing. -/
@[simp] theorem State.releaseClaims_zero (s : State) : s.releaseClaims 0 = s := rfl

/-- Removing records drops the oldest and, where there is one to remove, tells the stalled rings; nothing else
changes. -/
theorem State.removeRecords_spec (s : State) (k : Nat) :
    (s.removeRecords k).queue = { s.queue with records := s.queue.records.drop k }
      ∧ (∀ r, (s.removeRecords k).ring r = (s.ring r).tellFreed k)
      ∧ { s.removeRecords k with queue := s.queue, rings := s.rings } = s :=
  ⟨rfl, fun r => Four.get_map _ _ r, rfl⟩

/-- Telling a ring changes its mark alone. -/
theorem Ring.tellClaims_told (r : Ring) : { r.tellClaims with told := r.told } = r := by
  unfold Ring.tellClaims; split_ifs <;> rfl

theorem Ring.tellFreed_told (r : Ring) (c : Nat) : { r.tellFreed c with told := r.told } = r := by
  unfold Ring.tellFreed; split_ifs
  · rfl
  · exact r.tellClaims_told

/-! ## Accounts -/

/-- A changed account reads as changed, and the others as before; the change must keep the number. -/
theorem State.account_modAccount (s : State) (n m : Nat) (f : Account → Account)
    (hf : ∀ a, (f a).number = a.number) :
    (s.modAccount n f).account m = if m = n then (s.account m).map f else s.account m :=
  Table.account_modAccount _ _ _ _ hf

/-- One side of a posting: the balance held within its bounds and the unapplied part in the residue, so that balance
and residue together change by the amount. -/
theorem State.postSide_spec (s : State) (n : Nat) (delta : Int) (a : Account) (h : s.account n = some a) :
    (s.postSide n delta).account n = some (a.shift delta)
      ∧ (∀ m, m ≠ n → (s.postSide n delta).account m = s.account m)
      ∧ (a.shift delta).balance - a.balance + ((s.postSide n delta).bank.residue - s.bank.residue) = delta
      ∧ { s.postSide n delta with bank := s.bank } = s := by
  have e : s.postSide n delta
      = (s.modAccount n (fun a => a.shift delta)).addResidue (unapplied a.balance delta) := by
    simp [State.postSide, h]
  have ha : ∀ m, (s.postSide n delta).account m
      = if m = n then (s.account m).map (fun a => a.shift delta) else s.account m := by
    intro m; rw [e]; exact s.account_modAccount n m _ (fun _ => rfl)
  refine ⟨by simp [ha, h], fun m hm => by simp [ha, hm], ?_, by rw [e]; rfl⟩
  rw [e]
  show clampBalance (a.balance + delta) - a.balance
    + (s.bank.residue + (a.balance + delta - clampBalance (a.balance + delta)) - s.bank.residue) = delta
  omega

/-- Within its bounds a balance takes the whole change, and nothing goes to the residue. -/
theorem clampBalance_of_bounds (x : Int) (h : -balanceBound ≤ x ∧ x ≤ balanceBound) : clampBalance x = x := by
  unfold clampBalance; omega

theorem clampBalance_bounds (x : Int) : -balanceBound ≤ clampBalance x ∧ clampBalance x ≤ balanceBound := by
  have : (0 : Int) ≤ balanceBound := by decide
  unfold clampBalance; omega

end Sys2Proof.Machine
end

