-- ==== Sys2Proof/Laws/Floor.lean ====
section
/-! SUPPORT. What a decision of the floor transmitter, the settling of the floor at the end of a step and the discarding of
floor frames can change. -/

namespace Sys2Proof.Machine

/-- What changes two steps' boards alone, one after the other, changes the boards alone. -/
theorem State.boards_trans {s t u : State} (h : { t with boards := s.boards } = s)
    (g : { u with boards := t.boards } = t) : { u with boards := s.boards } = s := by
  rw [← h, ← g]

/-- The changes of a ring copied into its slot change the boards alone. -/
theorem State.syncSlot_eq (s t : State) (r : RingNo) (h : s.syncSlot r = t) : { t with boards := s.boards } = s := by
  subst h
  unfold State.syncSlot
  cases (s.slot r).content with
  | none => rfl
  | some c => simp only; split_ifs <;> rfl

theorem State.syncSlots_eq (s t : State) (h : s.syncSlots = t) : { t with boards := s.boards } = s :=
  State.boards_trans (State.boards_trans (State.boards_trans (s.syncSlot_eq _ .r1 rfl) (State.syncSlot_eq _ _ .r2 rfl))
    (State.syncSlot_eq _ _ .r3 rfl)) (State.syncSlot_eq _ t .r4 h)

/-- Rings that differ in their hold marks at most. -/
theorem Ring.sameButMarks_refl (x : Ring) : x.sameButMarks x := rfl

theorem Ring.sameButMarks_trans {x y z : Ring} (h : x.sameButMarks y) (g : y.sameButMarks z) : x.sameButMarks z := by
  unfold Ring.sameButMarks at *
  rw [← h, ← g]

/-- A state differs from another in the floor port, the boards and the hold marks of rings alone. -/
structure State.FloorChange (s t : State) : Prop where
  frame : { t with floor := s.floor, boards := s.boards, rings := s.rings } = s
  marks : ∀ r, (s.ring r).sameButMarks (t.ring r)

theorem State.FloorChange.refl (s : State) : s.FloorChange s := ⟨rfl, fun _ => rfl⟩

theorem State.FloorChange.trans {s t u : State} (h : s.FloorChange t) (g : t.FloorChange u) : s.FloorChange u :=
  ⟨by
    have e : { u with floor := s.floor, boards := s.boards, rings := s.rings }
      = { ({ u with floor := t.floor, boards := t.boards, rings := t.rings } : State) with
          floor := s.floor, boards := s.boards, rings := s.rings } := rfl
    rw [e, g.frame, h.frame],
   fun r => Ring.sameButMarks_trans (h.marks r) (g.marks r)⟩

/-- A board frame placed changes the floor port, the boards and the hold marks of rings alone. -/
theorem State.placeBoard_spec (s : State) (r : RingNo) : s.FloorChange (s.placeBoard r) := by
  unfold State.placeBoard
  cases (s.slot r).content with
  | none => exact .refl s
  | some c =>
    refine ⟨rfl, fun q => ?_⟩
    show (s.ring q).sameButMarks
      ((s.rings.set r { s.ring r with setSeen := false, clearSeen := false }).get q)
    rw [Four.get_set]
    split_ifs with h
    · subst h; rfl
    · rfl

/-- One decision of the floor transmitter changes the floor port, the boards and the hold marks of rings alone. -/
theorem State.floorDecideOnce_spec (s : State) : s.FloorChange s.floorDecideOnce := by
  unfold State.floorDecideOnce
  split_ifs
  · split
    · exact ⟨rfl, fun _ => rfl⟩
    · split
      · exact s.placeBoard_spec _
      · split
        · exact ⟨rfl, fun _ => rfl⟩
        · exact .refl s
  · exact .refl s

/-- With the line down or the stage full no decision places anything. -/
theorem State.floorDecide_still (s : State) (h : s.floorLine.cond ≠ .up ∨ s.floor.stage ≠ none) : s.floorDecide = s := by
  have h1 : s.floorDecideOnce = s := by
    unfold State.floorDecideOnce
    rw [if_neg]
    rcases h with h | h <;> simp [h]
  unfold State.floorDecide
  rw [h1, h1]

theorem State.floorDecide_spec (s : State) : s.FloorChange s.floorDecide :=
  s.floorDecideOnce_spec.trans s.floorDecideOnce.floorDecideOnce_spec

/-- The settling of the floor at the end of a step changes the floor port, the boards and the hold marks of rings
alone. -/
theorem State.settleFloor_spec (s : State) : s.FloorChange s.settleFloor := by
  have h := s.syncSlots_eq _ rfl
  have hr : s.syncSlots.rings = s.rings := by have g := congrArg State.rings h; exact g
  have hf : s.syncSlots.floor = s.floor := by have g := congrArg State.floor h; exact g
  refine State.FloorChange.trans ⟨?_, fun r => ?_⟩ s.syncSlots.floorDecide_spec
  · rw [← hr, ← hf]
    exact h
  · show (s.ring r).sameButMarks (s.syncSlots.rings.get r)
    rw [hr]
    rfl

/-! ## Frames that the routing discards (R168, R201) -/

/-- The misfit STOPs among discarded frames change the latches alone, and of these FLOOR_ERRORS alone, once each. -/
theorem State.latchMisfitStops_spec (fs : List Frame) (s : State) :
    { s.latchMisfitStops fs with latches := s.latches } = s
      ∧ (s.latchMisfitStops fs).latchAt 16 = (s.latchAt 16).floorErrors s.clock (fs.filter isMisfitStop).length
      ∧ ∀ n, n ≠ 16 → (s.latchMisfitStops fs).latchAt n = s.latchAt n := by
  unfold State.latchMisfitStops
  generalize fs.filter isMisfitStop = gs
  induction gs generalizing s with
  | nil => exact ⟨rfl, rfl, fun _ _ => rfl⟩
  | cons g gs ih =>
    obtain ⟨h1, h2, h3⟩ := ih (s.latchCause .floorErrors .none (some .floorErrors))
    refine ⟨?_, ?_, fun n hn => ?_⟩
    · exact congrArg (fun u : State => { u with latches := s.latches }) h1
    · exact h2.trans (by rw [State.latchAt_latchCause]; rfl)
    · exact (h3 n hn).trans ((s.latchAt_latchCause _ _ _ n).trans (if_neg hn))

/-- What leaves the front of the floor receive stage changes its entries, and the latches by its misfit STOPs. -/
theorem State.purgeFloor_spec (s : State) :
    s.purgeFloor.floor = { s.floor with rx := s.floor.rx.dropWhile (fun f => !(isStopFrame f)) }
      ∧ { s.purgeFloor with floor := s.floor, latches := s.latches } = s
      ∧ s.purgeFloor.latchAt 16 = (s.latchAt 16).floorErrors s.clock
          ((s.floor.rx.takeWhile (fun f => !(isStopFrame f))).filter isMisfitStop).length
      ∧ ∀ n, n ≠ 16 → s.purgeFloor.latchAt n = s.latchAt n := by
  obtain ⟨h1, h2, h3⟩ := State.latchMisfitStops_spec (s.floor.rx.takeWhile (fun f => !(isStopFrame f)))
    { s with floor := { s.floor with rx := s.floor.rx.dropWhile (fun f => !(isStopFrame f)) } }
  exact ⟨congrArg State.floor h1,
    congrArg (fun u : State => { u with floor := s.floor, latches := s.latches }) h1, h2, h3⟩

end Sys2Proof.Machine
end

