-- ==== Sys2Proof/Laws/Office.lean ====
section
/-! SUPPORT. What the service of an office request can do: the frame waits, is counted as an overrun, or is taken, served
and answered; and which row's effect a frame that ends on the office line has. -/

namespace Sys2Proof.Machine

/-- Taking a frame off the receive stage drops the front entry, if any. -/
theorem Port.take_spec (p : Port) (f : Frame) (h : p.rx = [] ∨ p.rx.head? = some f) :
    p.take f = some { p with rx := p.rx.drop 1 } := by
  obtain ⟨rx, st, ol, a, b, c, d, e, br⟩ := p
  rcases rx with - | ⟨g, rest⟩
  · rfl
  · have hg : g = f := by simpa using h
    subst hg
    simp [Port.take]

/-- A frame that has to wait changes the office port alone: it joins the receive stage, or counts as an overrun where
the stage is full. -/
theorem State.officeWaits_spec (s : State) (f : Frame) :
    { s.officeWaits f with office := s.office } = s
      ∧ (s.office.rx.length < 2 → (s.officeWaits f).office = { s.office with rx := s.office.rx ++ [f] })
      ∧ (2 ≤ s.office.rx.length → (s.officeWaits f).office = { s.office with cntO := bump s.office.cntO }) := by
  refine ⟨rfl, fun h => ?_, fun h => ?_⟩
  · simp [State.officeWaits, Port.full, Nat.not_le.2 h, Port.receive]
  · simp [State.officeWaits, Port.full, h, Port.count]

/-- A frame that cannot be taken waits. -/
theorem State.serve_waits (s : State) (f : Frame) (owner : State → Served) (h : s.office.stage ≠ none) :
    s.serve f owner = s.officeWaits f := by
  have : s.office.stage.isSome = true := Option.isSome_iff_ne_none.2 h
  simp [State.serve, this]

/-- A frame that is taken is served on the state without it and answered. -/
theorem State.serve_taken (s : State) (f : Frame) (owner : State → Served) (h : s.takes f) :
    s.serve f owner = (owner { s with office := { s.office with rx := s.office.rx.drop 1 } }).respond f.src f.kind := by
  obtain ⟨h1, h2⟩ := h
  simp [State.serve, h1, Port.take_spec s.office f h2]

/-- A response changes the office port alone of what its owner left. -/
theorem Served.respond_eq (v : Served) (src kind : Byte) :
    { v.respond src kind with office := v.state.office } = v.state := rfl

/-- A served request whose owner leaves the office port alone is answered with the owner's status and result. -/
theorem State.serve_answered (s : State) (f : Frame) (owner : State → Served) (h : s.takes f)
    (ho : (owner { s with office := { s.office with rx := s.office.rx.drop 1 } }).state.office
      = { s.office with rx := s.office.rx.drop 1 }) :
    s.answered (s.serve f owner) f
      (owner { s with office := { s.office with rx := s.office.rx.drop 1 } }).status
      (owner { s with office := { s.office with rx := s.office.rx.drop 1 } }).result := by
  rw [State.serve_taken s f owner h]
  unfold State.answered
  show ((owner _).state.office.place _) = _
  rw [ho]
  rfl

/-! ## A frame that ends on the line is the row that stands for its arrival -/

/-- A LOAD that names no loadable table is served as one. -/
theorem serveLoadFrame_other (src : Byte) (p : List Byte) (s : State) (h : p.head?.any loadableCode = false) :
    serveLoadFrame (requestFrame src 0x22 p) s = execLoadNotLoadable src p s := by
  rcases p with - | ⟨c, body⟩
  · rfl
  · simp only [List.head?_cons, Option.any_some, loadableCode] at h
    simp only [serveLoadFrame, requestFrame]
    split <;> first | rfl | simp_all

/-- A READ that names no table is served as one. -/
theorem serveReadFrame_other (src : Byte) (p : List Byte) (s : State) (h : p.head?.any readableCode = false) :
    serveReadFrame (requestFrame src 0x23 p) s = execReadBadTable src p s := by
  rcases p with - | ⟨c, body⟩
  · rfl
  · simp only [List.head?_cons, Option.any_some, readableCode] at h
    simp only [serveReadFrame, requestFrame]
    split <;> first | rfl | simp_all

/-- A frame to the part of a kind that is no request. -/
theorem serveRequestFrame_other (f : Frame) (s : State) (h : isRequestKind f.kind = false) :
    serveRequestFrame f s = execUnknownRequest f s := by
  simp only [isRequestKind] at h
  unfold serveRequestFrame
  split <;> first | rfl | simp_all

/-- A frame at the management unit has the effect of the row of the table that stands for its arrival. -/
theorem serveFrame_row (i : Instr) (f : Frame) (s : State) (hw : i.wellFormed = true) (hf : officeFrame i = some f) :
    serveFrame f s = exec i s := by
  cases i <;> simp only [officeFrame, Option.some.injEq, reduceCtorEq] at hf <;> subst hf
  case loadNotLoadable src p =>
    simp only [Instr.wellFormed, Bool.and_eq_true, Bool.not_eq_true'] at hw
    exact serveLoadFrame_other src p s hw.2
  case readBadTable src p =>
    simp only [Instr.wellFormed, Bool.and_eq_true, Bool.not_eq_true'] at hw
    exact serveReadFrame_other src p s hw.2
  case relay f =>
    simp only [Instr.wellFormed, Bool.and_eq_true] at hw
    have h0 : (f.dst == 0) = false := beq_eq_false_iff_ne.2 (fun h => by
      rw [h] at hw
      exact absurd hw.1 (by decide))
    simp only [serveFrame, h0, Bool.false_eq_true, if_false, hw.1, if_true, exec]
  case unknownRequest f =>
    simp only [Instr.wellFormed, Bool.and_eq_true, Bool.not_eq_true'] at hw
    simp only [serveFrame, hw.1.1, if_true, serveRequestFrame_other f s hw.1.2, exec]
  case badDestination f =>
    simp only [Instr.wellFormed, Bool.and_eq_true, decide_eq_true_eq] at hw
    have h0 : (f.dst == 0) = false := beq_eq_false_iff_ne.2 (fun h => by
      rw [h] at hw
      exact absurd hw.1 (by decide))
    have h1 : isStation f.dst.toNat = false := by
      simp only [isStation, Bool.and_eq_false_iff, decide_eq_false_iff_not]
      omega
    simp only [serveFrame, h0, h1, Bool.false_eq_true, if_false, exec]
  all_goals rfl

end Sys2Proof.Machine
end

