-- ==== Sys2Proof/Laws/Rings.lean ====
section
/-! SUPPORT. What an order drawn from free choices is, and where the end of a resolution that stands between its slots
changes nothing. -/

namespace Sys2Proof.Machine

/-- An order drawn from free choices holds the same members, and drawing it changes the counter of choices alone. -/
theorem State.order_spec {α : Type} (n : Nat) (xs : List α) (s : State) :
    (State.order n xs s).1.Perm xs ∧ ∃ c, (State.order n xs s).2 = { s with choices := c } := by
  have chosen (m : Nat) : ∃ c, (s.choose m).2 = { s with choices := c } := by
    unfold State.choose; split
    · exact ⟨s.choices, rfl⟩
    · exact ⟨s.choices + 1, rfl⟩
  induction n generalizing xs s with
  | zero => exact ⟨.refl xs, s.choices, rfl⟩
  | succ n ih =>
    obtain ⟨c, hc⟩ := chosen xs.length
    simp only [State.order]
    split
    · exact ⟨.refl xs, c, hc⟩
    · rename_i x hx
      obtain ⟨hlt, rfl⟩ := List.getElem?_eq_some_iff.mp hx
      obtain ⟨hp, d, hd⟩ := ih (xs.eraseIdx (s.choose xs.length).1) (s.choose xs.length).2 (by
        intro m; unfold State.choose; split
        · exact ⟨_, rfl⟩
        · exact ⟨_, rfl⟩)
      exact ⟨(hp.cons _).trans (List.getElem_cons_eraseIdx_perm hlt), d, by rw [hd, hc]⟩

/-- A ring whose resolution does not stand between its slots has nothing to end (R61). -/
theorem State.finishResolution_still (s : State) (r : RingNo) (h : (s.ring r).midway = false) :
    s.finishResolution r = s := by
  unfold State.finishResolution
  split
  · rename_i o hs ho
    have : o.midway = none := by simpa [Ring.midway, hs, ho] using h
    rw [this]
  · rfl

/-- With no resolution that stands between its slots, ending them all changes nothing. -/
theorem State.finishResolutions_still (s : State) (h : ∀ r, (s.ring r).midway = false) : s.finishResolutions = s := by
  have : allRings.filter (fun r => (s.ring r).midway) = [] := by simp [h]
  simp [State.finishResolutions, this, State.order]

end Sys2Proof.Machine
end

