-- ==== Sys2Proof/Tests/Slice0.lean ====
section
/-! SUPPORT. Small tests of one step each, their values worked from the spec's own examples, and for every statement
with hypotheses a concrete state that meets them. -/

namespace Sys2Proof.Tests

open Sys2Proof Sys2Proof.Machine

set_option maxRecDepth 8192

/-! ## The small states the tests stand on -/

/-- HALL with levies of 150 and 80 basis points and a net step of 5. -/
def hall : Hall :=
  { sellerLevy := 150, buyerCommission := 80, iceBoats := 9, iceBuyers := 12, netStep := 5, captureTimeout := 30,
    resolveWindow := 50, reofferLimit := 1, replyTimeout := 5, missLimit := 3, cyclePeriod := 250, breakTime := 100,
    floorSilence := 500, gateIdle := 30, iceWait := 600, reserveLevel := 3, lowMark := 20, resumeMark := 30,
    boardInterval := 300, noticeLevel := 0 }

def noon : Stamp := { tod := 43200000, day := 7 }

def boat : Account :=
  { Account.hallReset with number := 101, kind := .boat, limit := some 50000, overdraft := some 200, crates := [(1, 100)] }

def buyer : Account :=
  { Account.hallReset with number := 201, kind := .buyer, balance := 60000, limit := some 100000, held := 410 }

/-- The landed lot of Tables 2-6 to 2-8, on the clock of ring 1. -/
def lot1 : Lot :=
  { boat := 101, species := 1104, ring := .r1, ctype := 1, crates := 12, remaining := 12, gross := 31247, tare := 2220,
    allowance := 870, net := 28155, netRemaining := 28155, soldNet := 0, soldCrates := 0, reserve := none, offers := 1,
    landed := noon, station := 3, state := .onClock }

def lot2 : Lot :=
  { lot1 with ring := .r2, crates := 3, remaining := 3, net := 100, netRemaining := 100, offers := 0, state := .queued }

def profile : Profile :=
  { start := 522, floor := 300, step := 5, interval := 100, leadIn := 50, resumePause := 40, restartRaise := 2,
    afterSale := 60 }

def offer : Offer :=
  { lot := 1, profile := profile, effFloor := 300, startPrice := 522, price := 412, slot1 := none, slot2 := none,
    lastSale := none, midway := none }

def ring1 : Ring :=
  { Ring.reset with state := .descending, offer := some offer, claims := 2, timer := some { elapsed := 0, limit := 100 } }

def draft : Draft :=
  { boat := 101, species := 1104, ring := .r2, m := 3, n := 100, ctype := 1, tare := 185, deposit := 250, count := 12,
    netStep := 5, deadline := noon, accepted := noon, timer := { elapsed := 0, limit := 30000 } }

def idleChannel : Channel := { tracker := Tracker.reset, state := .idle }
def drafting : Channel :=
  { tracker := { state := .moving, counter := 2, previous := some 31246, held := none }, state := .capture draft }

/-- A dispense of 20 kg to buyer 201 at 12 cents, 3 kg delivered before this run. -/
def dispense : Dispense :=
  { state := .running, account := 201, ordered := 30, granted := 20, price := 12, hold := 1, cls := 3, runLevel := 4,
    requested := noon, latchOrder := 0, started := true, delivered := 3, current := 5, suspendCause := none,
    pendingOutcome := none, deadline := noon, wait := none }

def request : Dispense :=
  { dispense with state := .requested, granted := 10, hold := 3, cls := 5, runLevel := 5, latchOrder := 1,
                  started := false, delivered := 0, current := 0, wait := some { elapsed := 0, limit := 600000 } }

def session : Session :=
  { account := 201, ctype := 1, dir := .out, count := 4, clamped := false, opened := noon, deadline := noon,
    idle := { elapsed := 0, limit := 30000 } }

def online (d : Device) : Station :=
  { enabled := true, device := d, live := .online, misses := 0, commands := [], lastHeard := some noon, age := 0,
    carried := false }

def weigh (ch : Channel) : Device := .weigh { capacity := 60000, stability := 3, band := 4 } ch
def chute (d : Option Dispense) : Device := .chute { cls := 3, runLevel := 4 } { tag := 9, job := d }
def gate (x : Option Session) : Device := .gate .both { tag := 6, session := x, lastClose := none, report := none }

/-- A hall at work: a lot on ring 1, a lot queued at ring 2, a draft at station 4, a dispense running at station 5, a
request waiting at station 6, a session open at station 9, and an office hold. -/
def demo : State :=
  { State.reset with
    clock := noon, op := .run, hall := some hall,
    bank := { accounts := [(0, { Account.hallReset with balance := -60000 }), (1, boat), (2, buyer)], residue := 0,
              holds := [{ id := 1, account := 201, amount := 240, owner := .chute 5, at_ := noon },
                        { id := 2, account := 201, amount := 50, owner := .office, at_ := noon },
                        { id := 3, account := 201, amount := 120, owner := .chute 6, at_ := noon }], nextHold := 4 },
    queue := { records := [], owed := 6, next := 1 },
    lotStore := { lots := [(1, lot1), (2, lot2)], reserved := 1, next := 3 },
    rings := { a1 := ring1, a2 := { Ring.reset with state := .waiting, queue := [2] }, a3 := Ring.reset,
               a4 := Ring.reset },
    species := [(1, { code := 1104, ring := .r2, profile := 1, m := 3, n := 100 })],
    profiles := [(1, profile)],
    crateTypes := [(1, { tare := 185, deposit := 250, pool := 3000, store := 2885, shortfall := 0, residue := 0 })],
    keypads := [(1, { enabled := true, account := some 201, rings := { a1 := true, a2 := true, a3 := false, a4 := false } })],
    stations := [(3, online (weigh idleChannel)), (4, online (weigh drafting)), (5, online (chute (some dispense))),
                 (6, online (chute (some request))), (9, online (gate (some session))), (11, online .icePlant)],
    ice := { IcePlant.reset with screw := .running 5, latch := [6], level := some 60, emptyFlag := some false, reserve := 3,
                                 nextLatch := 2 },
    poller := { Poller.reset with state := .polling, cycleTimer := some { elapsed := 0, limit := 250 }, cycle := some false,
                                  poll := some { station := 3, phase := .awaiting { elapsed := 0, limit := 5 } } },
    floorLine := { cond := .up, silence := some { elapsed := 0, limit := 500 } } }

/-- The state a command answers. -/
def after (i : Instr) (s : State) : State :=
  match exec i s with
  | .next t => t
  | .fault f => nomatch f
  | .refused _ => s

/-- The result fields of the response on the office line, after its head. -/
def result (s : State) : Option (List Byte) := s.office.onLine.map (fun f => f.payload.drop 5)

/-- The status code of that response. -/
def status (s : State) : Option Byte := s.office.onLine.bind (fun f => f.payload.head?)

/-- A state with another context at a station. -/
def withContext (s : State) (a : Nat) (d : Device) : State := s.modStation a (fun st => st.withDevice d)

/-! ## WellFormed: each check refuses an ill-formed term -/

def long : List Byte := List.replicate 121 0
def reply (a : Byte) (p : List Byte) : Frame := { dst := 0, src := a, kind := 0x02, payload := p }

theorem test_ill_reply_kind : (Instr.quayReply { reply 3 [] with kind := 0x01 }).wellFormed = false := by decide
theorem test_ill_reply_long : (Instr.quayReply (reply 3 long)).wellFormed = false := by decide
theorem test_ill_heard_kind : (Instr.heardReply { reply 3 [] with kind := 0x03 }).wellFormed = false := by decide
theorem test_ill_foreign_kind : (Instr.foreignPoll (reply 3 [])).wellFormed = false := by decide
theorem test_ill_foreign_source : (Instr.foreignPoll { reply 0 [] with kind := 0x01 }).wellFormed = false := by decide
theorem test_ill_stop_kind : (Instr.floorStop { reply 9 [] with kind := 0x10 }).wellFormed = false := by decide
theorem test_ill_stop_destination : (Instr.floorStop { dst := 1, src := 9, kind := 0x11, payload := [] }).wellFormed = false := by decide
theorem test_ill_station_0 : (Instr.hearingExpiry 0).wellFormed = false := by decide
theorem test_ill_station_31 :
    (Instr.captureTimeout 31).wellFormed = false ∧ (Instr.iceWaitTimeout 31).wellFormed = false
      ∧ (Instr.gateIdleTimeout 31).wellFormed = false := by decide
theorem test_ill_body : (Instr.loadHall 200 (List.replicate 120 0)).wellFormed = false
    ∧ (Instr.readHall 200 (List.replicate 120 0)).wellFormed = false := by decide
theorem test_ill_not_loadable : (Instr.loadNotLoadable 200 [1, 0, 1]).wellFormed = false
    ∧ (Instr.loadNotLoadable 200 [8, 0, 1]).wellFormed = false ∧ (Instr.loadNotLoadable 200 long).wellFormed = false := by
  decide
theorem test_ill_bad_table : (Instr.readBadTable 200 [10, 0, 1, 1]).wellFormed = false
    ∧ (Instr.readBadTable 200 long).wellFormed = false := by decide
theorem test_ill_payload : (Instr.settle 200 long).wellFormed = false := by decide
theorem test_ill_relay : (Instr.relay { dst := 0, src := 200, kind := 0x40, payload := [] }).wellFormed = false
    ∧ (Instr.relay { dst := 31, src := 200, kind := 0x40, payload := [] }).wellFormed = false
    ∧ (Instr.relay { dst := 5, src := 200, kind := 0x40, payload := long }).wellFormed = false := by decide
theorem test_ill_unknown : (Instr.unknownRequest { dst := 0, src := 200, kind := 0x20, payload := [] }).wellFormed = false
    ∧ (Instr.unknownRequest { dst := 5, src := 200, kind := 0x40, payload := [] }).wellFormed = false
    ∧ (Instr.unknownRequest { dst := 0, src := 200, kind := 0x40, payload := long }).wellFormed = false := by decide
theorem test_ill_destination : (Instr.badDestination { dst := 30, src := 200, kind := 0x22, payload := [] }).wellFormed = false
    ∧ (Instr.badDestination { dst := 31, src := 200, kind := 0x22, payload := long }).wellFormed = false := by decide
theorem test_well_formed : (Instr.relay { dst := 30, src := 200, kind := 0x40, payload := [1] }).wellFormed = true
    ∧ (Instr.badDestination { dst := 31, src := 200, kind := 0x22, payload := [] }).wellFormed = true
    ∧ (Instr.loadHall 200 (List.replicate 119 0)).wellFormed = true ∧ (Instr.hearingExpiry 30).wellFormed = true := by
  decide

/-! ## No word spells a command -/

theorem test_no_word_spells_a_command : decodeTableWord 16 0x2A01 = none := by decide
theorem test_fetch_word_changes_nothing : demo.withFetchWord 16 0x2A01 = demo := by decide

/-! ## The envelope: the check of the nine digits is 29B1 (R200); the reserved bytes are escaped -/

theorem test_check_of_digits : crc [0x31, 0x32, 0x33, 0x34, 0x35, 0x36, 0x37, 0x38, 0x39] = 0x29B1#16 := by decide
theorem test_escapes : escape [0xF5, 0xFA, 0xF7, 0x20] = [0xF7, 0xD5, 0xF7, 0xDA, 0xF7, 0xD7, 0x20] := by decide
theorem test_unescape : unescape [0xF7, 0xD5, 0x20, 0xF7, 0xD7] = ([0xF5, 0x20, 0xF7], false) := by decide

/-! ## Figures (sections 2.10, 4.8, 4.9, 5.7; R80 to R84) -/

theorem test_capture_figures : draft.figures 31247 = { tare := 2220, fishAndIce := 29027, allowance := 870, net := 28155 } := by
  decide
def sale1 : SaleInputs :=
  { netRemaining := 28155, cratesRemaining := 12, price := 412, sellerRate := 150, buyerRate := 80, deposit := 250 }
theorem test_first_sale : sale1.figures 5 = { w := 11731, value := 48332, sellerLevy := 725, commission := 387, deposit := 1250 }
    ∧ (sale1.figures 5).charge = 49969 ∧ (sale1.figures 5).boatCredit = 47607 := by decide
theorem test_second_sale :
    ({ sale1 with netRemaining := 16424, cratesRemaining := 7, price := 422 } : SaleInputs).figures 7
      = { w := 16424, value := 69309, sellerLevy := 1040, commission := 554, deposit := 1750 } := by decide
theorem test_clamped_stop : affordable sale1 30000 5 = 3 ∧ (sale1.figures 3).charge = 29979 := by decide
theorem test_three_parts : soldParts 100 3 [1, 1, 1] = [33, 33, 34] := by decide
theorem test_levy_rounds : levy 100 50 = 1 ∧ levy 99 50 = 0 := by decide
theorem test_granted_ice : grantedIce 6000 12 50000 = 4166 := by decide

/-! ## One step each: the part, its clock and the lines -/

theorem test_powerOn_keeps_the_queue : (after .powerOn (demo.withPending [.hallTick])).pending = [.hallTick]
    ∧ (after .powerOn demo).stations = [] := by decide
theorem test_hallTick_wraps_the_day :
    (after .hallTick { demo with clock := { tod := 86399999, day := 411 } }).clock = { tod := 0, day := 412 } := by decide
theorem test_hallTick_wraps_the_day_number :
    (after .hallTick { demo with clock := { tod := 86399999, day := 65535 } }).clock = { tod := 0, day := 0 } := by decide
/-- A RUN whose frame ends with the office stages empty is taken at once and answered STATE (R179, R181). -/
theorem test_frameEnd_serves : status (after (.frameEnd .office (frameWire (requestFrame 200 0x20 [])) false) demo) = some 7
    ∧ (after (.frameEnd .office (frameWire (requestFrame 200 0x20 [])) false) demo).office.rx = [] := by decide
theorem test_frameEnd_places :
    (after (.frameEnd .office (frameWire (requestFrame 200 0x20 [])) false)
      { demo with office := { Port.reset with stage := some (reply 1 []) } }).office.rx = [requestFrame 200 0x20 []] := by decide
theorem test_frameEnd_overrun :
    (after (.frameEnd .office (frameWire (requestFrame 200 0x20 [])) false)
      { demo with office := { Port.reset with rx := [requestFrame 200 0x20 [], requestFrame 200 0x20 []] } }).office.cntO = 1 := by
  decide
theorem test_lineBreak_at_the_limit_does_nothing : after (.lineBreak .quay 100 true) demo = demo := by decide
theorem test_lineBreak_stops_polling : (after (.lineBreak .quay 101 false) demo).poller.state = .broken .polling := by decide
theorem test_breakEnd_polls_again :
    (after (.breakEnd .quay) (after (.lineBreak .quay 101 false) demo)).poller.state = .polling := by decide
theorem test_frameSent_moves_the_waiting_frame :
    (after (.frameSent .office) { demo with office := { Port.reset with onLine := some (reply 1 []), stage := some (reply 2 []) } }).office
      = { Port.reset with onLine := some (reply 2 []) } := by decide
/-- With the stage empty the waiting request is taken, and its response waits behind the one now on the line (R179). -/
theorem test_frameSent_serves :
    (fun t => (t.office.onLine, t.office.rx, t.office.stage.map (fun g => (g.dst, g.kind, g.payload.head?))))
      (after (.frameSent .office) { demo with office := { Port.reset with
        onLine := some (reply 1 []), stage := some (reply 2 []), rx := [requestFrame 200 0x20 []] } })
      = (some (reply 2 []), [], some (200, 0x20, some 7)) := by decide
theorem test_floorSilence_holds_ring_1 :
    ((after .floorSilence { demo with floorLine := { cond := .up, silence := some { elapsed := 500, limit := 500 } } }).ring .r1).state
      = .held := by decide
theorem test_floorSilence_early : after .floorSilence demo = demo := by decide

/-! ## One step each: the poller -/

theorem test_cycleTimerWrap_marks_a_start :
    (after .cycleTimerWrap { demo with poller := { demo.poller with cycleTimer := some { elapsed := 250, limit := 250 } } }).poller.startDue
      = true := by decide
theorem test_replyTimeout_third_miss :
    ((after .replyTimeout ({ demo with poller := { demo.poller with
        poll := some { station := 3, phase := .awaiting { elapsed := 5, limit := 5 } } } }.modStation 3
          (fun st => { st with misses := 2 }))).station 3).map (fun st => (st.live, st.misses)) = some (.offline, 3) := by
  decide
theorem test_quayReply_polls_on :
    (after (.quayReply (reply 3 [0, 0x7A, 0x0F, 0, 0])) demo).poller.poll = some { station := 4, phase := .onLine } := by decide
theorem test_quayReply_captures_lot_57 :
    ((after (.quayReply (reply 4 [0, 0x7A, 0x0F, 0, 0]))
      { demo with poller := { demo.poller with poll := some { station := 4, phase := .awaiting { elapsed := 0, limit := 5 } } },
                  lotStore := { demo.lotStore with next := 57 } }).lot 57).map (fun l => (l.gross, l.net, l.allowance))
      = some (31247, 28155, 870) := by decide
theorem test_foreignPoll_listens :
    (after (.foreignPoll { dst := 4, src := 77, kind := 0x01, payload := [] }) demo).poller.state = .listen := by decide
def listening : State := { demo with poller := { Poller.reset with state := .listen } }
theorem test_heardReply_brings_no_item :
    (after (.heardReply (reply 3 [0, 0x7A, 0x0F, 0, 1, 0, 101, 4, 0x50, 1, 12])) listening).weighAt 3
      = some ({ capacity := 60000, stability := 3, band := 4 },
          { idleChannel with tracker := { Tracker.reset with previous := some 31247 } }) := by decide
/-- A heard reply of a wrong length brings an OFFLINE station ONLINE and latches QUAY_ERRORS (R163, R201). -/
theorem test_heardReply_of_a_wrong_length :
    (fun t => ((t.station 3).map (fun st => (st.live, st.misses, st.lastHeard)), (t.latchAt 15).subject))
      (after (.heardReply (reply 3 [0])) (listening.modStation 3 (fun st => { st with live := .offline, misses := 3 })))
      = (some (.online, 0, some noon), some (.station 3)) := by decide
theorem test_hearingExpiry_loses_the_station :
    ((after (.hearingExpiry 3) (listening.modStation 3 (fun st => { st with age := 750 }))).station 3).map (fun st => st.live)
      = some .offline := by decide
theorem test_breakTimerExpiry_loses_all :
    (after .breakTimerExpiry { demo with poller := { Poller.reset with
        state := .broken .polling, breakTimer := some { elapsed := 750, limit := 750 } } }).latchAt 6
      = { pending := true, count := 6, subject := some (.station 3), cause := none, time := some noon } := by decide

/-! ## One step each: weighing, rings, ice, gates, boards -/

theorem test_captureTimeout_releases :
    (after (.captureTimeout 4) (withContext demo 4 (weigh { drafting with state := .capture { draft with
        timer := { elapsed := 30000, limit := 30000 } } }))).queue.owed = 5 := by decide
theorem test_captureTimeout_early : after (.captureTimeout 4) demo = demo := by decide
def stop17 : Frame := { dst := 0, src := 99, kind := 0x11, payload := [1, 1, 5] }
theorem test_floorStop_takes_slot_1 : ((after (.floorStop stop17) demo).ring .r1).offer.bind (fun o => o.slot1)
    = some { keypad := 1, wanted := 5, at_ := noon } := by decide
/-- A STOP of a wrong length to another destination latches FLOOR_ERRORS (R201), and leaves the stage (R168). -/
theorem test_frameEnd_misfit_stop :
    (fun t => ((t.latchAt 16).cause, (t.latchAt 16).count, t.floor.rx))
      (after (.frameEnd .floor (frameWire { stop17 with dst := 5, payload := [1] }) false) demo) = (some .floorErrors, 1, [])
    ∧ (after (.frameEnd .floor (frameWire { stop17 with dst := 5 }) false) demo).latches = demo.latches := by decide
theorem test_floorStop_closed :
    (after (.floorStop { stop17 with payload := [1, 3, 5] }) { demo with floorLine := { demo.floorLine with cond := .silent } }).floorLine.cond
      = .up := by decide
theorem test_offerStart_takes_both_claims :
    (after (.offerStart .r2) demo).queue.owed = 8 ∧ ((after (.offerStart .r2) demo).ring .r2).state = .leadIn := by decide
def leading (claims elapsed : Nat) : State :=
  demo.setRing .r1 { ring1 with state := .leadIn, claims := claims, timer := some { elapsed := elapsed, limit := 40 } }
theorem test_claimTopUp : ((after (.claimTopUp .r1) (leading 1 0)).ring .r1).claims = 2 := by decide
theorem test_pauseExpiry_descends : ((after (.pauseExpiry .r1) (leading 2 40)).ring .r1).state = .descending := by decide
theorem test_pauseExpiry_stalls : ((after (.pauseExpiry .r1) (leading 1 40)).ring .r1).stall = .claims := by decide
def falling (price : Nat) : State :=
  demo.setRing .r1 { ring1 with offer := some { offer with price := price }, timer := some { elapsed := 100, limit := 100 } }
theorem test_stepWrap_falls : ((after (.stepWrap .r1) (falling 412)).ring .r1).offer.map (fun o => o.price) = some 407 := by decide
theorem test_stepWrap_requeues : ((after (.stepWrap .r1) (falling 300)).ring .r1).queue = [1] := by decide
def resolving : State :=
  demo.setRing .r1 { ring1 with
    state := .resolving, timer := some { elapsed := 50, limit := 50 },
    offer := some { offer with slot1 := some { keypad := 1, wanted := 5, at_ := noon } } }
theorem test_resolveExpiry_resumes_at_422 :
    ((after (.resolveExpiry .r1) resolving).ring .r1).offer.map (fun o => o.price) = some 422 := by decide
theorem test_resolveExpiry_sells_11731 :
    ((after (.resolveExpiry .r1) resolving).lot 1).map (fun l => (l.remaining, l.netRemaining)) = some (7, 16424) := by decide
def afterSale : State :=
  demo.setRing .r1 { ring1 with state := .afterSale, claims := 0, timer := some { elapsed := 60, limit := 60 } }
theorem test_afterSaleExpiry : ((after (.afterSaleExpiry .r1) afterSale).ring .r1).state = .waiting := by decide
def screwFree : State := { withContext demo 5 (chute none) with ice := { demo.ice with screw := .idle } }
theorem test_screwGrant_starts_the_request :
    (after .screwGrant screwFree).ice.screw = .running 6
      ∧ ((after .screwGrant screwFree).station 6).map (fun st => st.commands) = some [.start 10 10] := by decide
def waitedOut : State := withContext demo 6 (chute (some { request with wait := some { elapsed := 600000, limit := 600000 } }))
theorem test_iceWaitTimeout_ends : (after (.iceWaitTimeout 6) waitedOut).queue.records.map (fun r => r.body)
    = [.ice 2 201 30 10 0 0 .timeout buyer.flags] := by decide
def idledOut : State := withContext demo 9 (gate (some { session with idle := { elapsed := 30000, limit := 30000 } }))
theorem test_gateIdleTimeout_closes : ((after (.gateIdleTimeout 9) idledOut).account 201).map (fun a => (a.balance, a.crateBalance 1))
    = some (59000, 4) := by decide
theorem test_paceExpiry_readies :
    ((after (.paceExpiry .r1) ({ demo with floorLine := { demo.floorLine with cond := .silent } }.setSlot .r1
      { content := none, readiness := .paced, pace := some { elapsed := 300, limit := 300 } })).slot .r1).readiness = .ready := by
  decide

/-! ## One step each: operating state, LOAD and READ (section 10.7) -/

theorem test_run_without_hall : status (after (.run 200 []) State.reset) = some 7 := by decide
def hallBytes (low resume : Byte) : List Byte :=
  be 2 1 ++ be 2 150 ++ be 2 80 ++ be 2 9 ++ be 2 12 ++ [5, 30] ++ be 2 400 ++ [1, 20, 3] ++ be 2 250 ++ be 2 100
    ++ be 2 1000 ++ be 2 60 ++ be 2 600 ++ [4, low, resume] ++ be 2 500 ++ [2]
theorem test_loadHall_marks_20_20 : status (after (.loadHall 200 (hallBytes 20 20)) State.reset) = some 4
    ∧ result (after (.loadHall 200 (hallBytes 20 20)) State.reset) = some [0, 1] := by decide
theorem test_loadHall_marks_20_35 : result (after (.loadHall 200 (hallBytes 20 35)) State.reset) = some [0, 2]
    ∧ (after (.loadHall 200 (hallBytes 20 35)) State.reset).floorLine.silence = some { elapsed := 0, limit := 1000 } := by decide
theorem test_run_with_hall : (after (.run 200 []) { after (.loadHall 200 (hallBytes 20 35)) State.reset with office := Port.reset }).op
    = .run := by decide
/-- With one dispense in flight and no session, RESTART writes one ICE record. -/
theorem test_restart :
    (after (.restart 200 []) ((withContext demo 6 (chute none)).setGate 9 { tag := 6, session := none, lastClose := none, report := none })).queue.records.map
      (fun r => r.body) = [.ice 1 201 30 20 8 96 .restart { n := false, z := false, v := false, l := false }] := by decide
def weighEntry (stability : Byte) : List Byte := [1, 1] ++ be 4 40000 ++ [stability, 4, 0, 0, 0, 0]
def chuteEntry : List Byte := [2, 1, 0, 0, 0, 0, 0, 0, 2, 3, 0, 0]
theorem test_loadStations_stops_at_4 :
    result (after (.loadStations 200 (be 2 3 ++ weighEntry 3 ++ weighEntry 1 ++ chuteEntry)) State.reset) = some [0, 4, 1] := by decide
theorem test_loadStations_numbers :
    result (after (.loadStations 200 (be 2 4 ++ chuteEntry ++ weighEntry 3)) State.reset) = some [0, 6, 1, 1] := by decide
theorem test_loadSpecies : result (after (.loadSpecies 200 (be 2 64 ++ be 2 1105 ++ [4, 16, 3] ++ be 2 100 ++ [0])) demo)
    = some [0, 65] := by decide
theorem test_loadProfiles :
    (after (.loadProfiles 200 (be 2 4 ++ be 3 522 ++ be 3 300 ++ be 2 5 ++ be 2 250 ++ be 2 3000 ++ be 2 1500 ++ [2] ++ be 2 2000 ++ [0])) demo).profiles.find 4
      = some { start := 522, floor := 300, step := 5, interval := 250, leadIn := 3000, resumePause := 1500, restartRaise := 2, afterSale := 2000 } := by
  decide
theorem test_loadCrates_creates :
    (after (.loadCrates 200 (be 2 3 ++ be 2 185 ++ be 2 250 ++ be 2 2000 ++ [0])) demo).crateTypes.find 3
      = some { tare := 185, deposit := 250, pool := 2000, store := 2000, shortfall := 0, residue := 0 } := by decide
theorem test_loadCrates_in_use : status (after (.loadCrates 200 (be 2 1 ++ be 6 0 ++ [1])) demo) = some 5 := by decide
theorem test_loadKeypads :
    (after (.loadKeypads 200 (be 2 17 ++ [1] ++ be 2 3107 ++ [0x0F, 0])) demo).keypads.find 17
      = some { enabled := true, account := some 3107, rings := { a1 := true, a2 := true, a3 := true, a4 := true } } := by decide
theorem test_loadAccounts_creates :
    (after (.loadAccounts 200 (be 2 3 ++ be 2 214 ++ [1] ++ be 4 50000 ++ be 2 40 ++ be 4 0 ++ [0])) demo).account 214
      = some (newAccount 214 .boat 50000 (some 40)) := by decide
theorem test_loadAccounts_duplicate :
    status (after (.loadAccounts 200 (be 2 3 ++ be 2 201 ++ [2] ++ be 4 0 ++ be 2 0 ++ be 4 0 ++ [0])) demo) = some 9 := by decide
theorem test_loadBoardText : (after (.loadBoardText 200 (be 2 3 ++ [2, 0x4F, 0x4B])) demo).textLine 3 = [0x4F, 0x4B] := by decide
theorem test_loadNotLoadable : status (after (.loadNotLoadable 200 [9, 0, 5]) demo) = some 2
    ∧ result (after (.loadNotLoadable 200 [9, 0, 5]) demo) = some [0, 5] := by decide
theorem test_readHall : (result (after (.readHall 200 [0, 1, 1]) demo)).map (fun b => b.take 11) = some [0, 1, 1, 0, 150, 0, 80, 0, 9, 0, 12] := by
  decide
theorem test_readStations_bad_index : status (after (.readStations 200 [0, 31, 1]) demo) = some 3 := by decide
theorem test_readSpecies : (result (after (.readSpecies 200 [0, 1, 1]) demo)).map (fun b => b.take 10) = some [0, 1, 1, 4, 0x50, 2, 1, 3, 0, 100] := by
  decide
theorem test_readProfiles_empty : result (after (.readProfiles 200 [0, 2, 1]) demo) = some [0, 2, 0, 0, 3] := by decide
theorem test_readCrates_range : status (after (.readCrates 200 [0, 1, 9]) demo) = some 4 := by decide
theorem test_readKeypads : (result (after (.readKeypads 200 [0, 1, 1]) demo)).map (fun b => b.take 7) = some [0, 1, 1, 1, 0, 201, 3] := by decide
theorem test_readAccounts_bad_index : status (after (.readAccounts 200 [2, 0, 1]) demo) = some 3 := by decide
theorem test_readBoardText : status (after (.readBoardText 200 [0, 8, 1]) demo) = some 0 := by decide
theorem test_readLots_not_found : status (after (.readLots 200 [0, 9, 1]) demo) = some 6 := by decide
theorem test_readHolds : status (after (.readHolds 200 [0, 16, 1]) demo) = some 0 := by decide
theorem test_readBadTable : status (after (.readBadTable 200 [11, 0, 1, 1]) demo) = some 2 := by decide

/-! ## One step each: commands -/

theorem test_stopAccount : ((after (.stopAccount 200 [0, 201]) demo).account 201).map (fun a => (a.state, a.cause)) = some (.stopped, .office) := by
  decide
theorem test_stopAccount_hall : status (after (.stopAccount 200 [0, 0]) demo) = some 7 := by decide
theorem test_openAccount : ((after (.openAccount 200 [0, 201]) (demo.modAccount 201 (fun a => { a with state := .stopped, cause := .overlimit }))).account 201).map
    (fun a => (a.state, a.cause)) = some (.opened, .none) := by decide
/-- Step 2 of section 1.8: 100,000 from the hall to a buyer without balance. -/
theorem test_transfer : result (after (.transfer 200 (be 2 0 ++ be 2 201 ++ be 4 100000)) (demo.modAccount 201 (fun a => { a with balance := 0 })))
    = some (be 2 1 ++ beInt 4 (-160000) ++ be 4 100000 ++ [1, 0]) := by decide
def richBoat : State := demo.modAccount 101 (fun a => { a with balance := 1999990000 })
/-- The second case of section 1.9: the boat's side alone saturates, and the residue takes 15,000. -/
theorem test_transfer_saturates :
    (after (.transfer 200 (be 2 0 ++ be 2 101 ++ be 4 25000)) richBoat).bank.residue = 15000
      ∧ (after (.transfer 200 (be 2 0 ++ be 2 101 ++ be 4 25000)) richBoat).balanceOf 101 = 2000000000 := by decide
theorem test_settle : (after (.settle 200 [0, 101]) demo).queue.records.map (fun r => r.body) = [.settlement 101 0 DayTotals.zero] := by
  decide
theorem test_placeHold : result (after (.placeHold 200 (be 2 201 ++ be 4 1000)) demo) = some (4 :: be 6 158590) := by decide
theorem test_placeHold_credit : status (after (.placeHold 200 (be 2 201 ++ be 4 159591)) demo) = some 10 := by decide
theorem test_releaseHold : result (after (.releaseHold 200 [2]) demo) = some (be 2 201 ++ be 4 50 ++ be 6 159640) := by decide
theorem test_releaseHold_of_a_chute : status (after (.releaseHold 200 [1]) demo) = some 5 := by decide
theorem test_startRing : ((after (.startRing 200 [3]) demo).ring .r3).state = .waiting := by decide
theorem test_stopRing_returns_the_lot : ((after (.stopRing 200 [1]) demo).ring .r1).queue = [1]
    ∧ (after (.stopRing 200 [1]) demo).queue.owed = 4 := by decide
theorem test_hold : ((after (.hold 200 [1]) demo).ring .r1).state = .held := by decide
theorem test_hold_pending : ((after (.hold 200 [1]) resolving).ring .r1).holdPending = true := by decide
def held (office floor : Bool) : State := demo.setRing .r1 (ring1.hold office floor)
theorem test_release_leaves_held : ((after (.release 200 [1]) (held true false)).ring .r1).state = .leadIn := by decide
theorem test_release_keeps_floor : ((after (.release 200 [1]) (held true true)).ring .r1).state = .held := by decide
theorem test_withdraw : (after (.withdraw 200 [0, 2]) demo).queue.records.map (fun r => r.body) = [.withdrawn 2 101 3 100 .office]
    ∧ (after (.withdraw 200 [0, 2]) demo).balanceOf 101 = -750 := by decide
theorem test_withdraw_on_clock : status (after (.withdraw 200 [0, 1]) demo) = some 7 := by decide
theorem test_moveLot : ((after (.moveLot 200 [0, 2]) (demo.setRing .r2 { Ring.reset with queue := [5, 2] })).ring .r2).queue = [2, 5] := by
  decide
theorem test_setReserve : ((after (.setReserve 200 (be 2 2 ++ be 3 600)) demo).lot 2).bind (fun l => l.reserve) = some 600 := by decide
theorem test_setReserve_range : status (after (.setReserve 200 (be 2 2 ++ be 3 100000)) demo) = some 4 := by decide
theorem test_setFloor : (after (.setFloor 200 [7]) demo).ice.officeFloor = 7 := by decide
theorem test_setFloor_range : status (after (.setFloor 200 [8]) demo) = some 4 := by decide
theorem test_cancelRequest : (after (.cancelRequest 200 [2]) demo).bank.holds.map (fun h => h.id) = [1, 2] := by decide
theorem test_cancelRequest_running : status (after (.cancelRequest 200 [1]) demo) = some 7 := by decide
/-- Step 7 of section 6.7: 13 crates found broken. -/
theorem test_poolAdjust :
    ((after (.poolAdjust 200 ([1] ++ beInt 4 (-13))) { demo with crateTypes := [(1, { tare := 185, deposit := 250, pool := 2013, store := 18, shortfall := 0, residue := 0 })] }).crateTypes.find 1).map
      (fun c => (c.pool, c.store)) = some (2000, 5) := by decide
/-- Step 6 of section 6.7, with this hall's holdings of 115. -/
theorem test_stocktake :
    ((after (.stocktake 200 ([1] ++ be 4 18)) (withContext demo 9 (gate none))).crateTypes.find 1).map (fun c => (c.pool, c.store, c.shortfall)) = some (133, 18, 0) := by
  decide
theorem test_stocktake_session_open : status (after (.stocktake 200 ([1] ++ be 4 18)) demo) = some 5 := by decide
def recorded : State := { demo with queue := { demo.queue with
  records := [{ number := 65535, body := .settlement 101 0 DayTotals.zero, at_ := noon }], next := 1 } }
theorem test_collect : (after (.collect 200 [4]) recorded).queue.records = []
    ∧ (result (after (.collect 200 [4]) recorded)).map (fun b => b.take 3) = some [0xFF, 0xFF, 7] := by decide
theorem test_collect_range : status (after (.collect 200 [5]) recorded) = some 4 := by decide
theorem test_resumePoll : (after (.resumePoll 200 []) listening).poller.state = .polling := by decide
theorem test_resumePoll_polling : status (after (.resumePoll 200 []) demo) = some 7 := by decide
theorem test_clearCounters : (after (.clearCounters 200 [1]) { demo with quay := { Port.reset with cntC := 5, cntB := 65535 } }).quay = Port.reset := by
  decide
theorem test_showLines : result (after (.showLines 200 [0x80]) { demo with boards := { demo.boards with showing := [3] } }) = some [0x84] := by
  decide
theorem test_noticeRead : result (after (.noticeRead 200 [6, 1]) (demo.latch .stationLost (.station 12)))
    = some ([6, 5, 1, 1, 1] ++ be 2 12 ++ be 4 43200000 ++ be 2 7 ++ [0, 0] ++ be 4 43200000 ++ be 2 7) := by decide
/-- A clear latch: kind and number of its subject, its time and its day are absent. -/
theorem test_noticeRead_clear : result (after (.noticeRead 200 [7, 1]) demo)
    = some ([7, 5, 0, 0] ++ List.replicate 9 0xFF ++ [0, 0] ++ be 4 43200000 ++ be 2 7) := by decide
theorem test_noticeClear : (after (.noticeClear 200 [0, 0x20]) (demo.latch .stationLost (.station 12))).latchAt 6 = Latch.clear := by
  decide
theorem test_timeSet : (after (.timeSet 200 (be 4 86399999 ++ be 2 65535)) demo).clock = { tod := 86399999, day := 65535 } := by decide
theorem test_timeSet_range : status (after (.timeSet 200 (be 4 86400000 ++ be 2 0)) demo) = some 4 := by decide
theorem test_relay_joins_the_list :
    ((after (.relay { dst := 5, src := 200, kind := 0x40, payload := [7] }) demo).station 5).map (fun st => st.commands) = some [.relay 0x40 [7]] := by
  decide
theorem test_unknownRequest : status (after (.unknownRequest { dst := 0, src := 200, kind := 0x3C, payload := [] }) demo) = some 1 := by decide
theorem test_badDestination : status (after (.badDestination { dst := 31, src := 200, kind := 0x20, payload := [] }) demo) = some 3 := by decide

/-! ## Every statement with hypotheses: states and operands that meet them, clause by clause -/

/-! ### The laws: the demo state keeps each of them, and a tick waits in its queue -/

def ticking : State := demo.withPending [.hallTick]

theorem ticking_steps : ∃ t, step ticking = .next t := ⟨_, rfl⟩

theorem ticking_jobAt (a : Nat) (d : Dispense) (h : ticking.jobAt a = some d) :
    (a = 5 ∧ d = dispense) ∨ (a = 6 ∧ d = request) := by
  by_cases h3 : a = 3 <;> by_cases h4 : a = 4 <;> by_cases h5 : a = 5 <;> by_cases h6 : a = 6 <;>
    by_cases h9 : a = 9 <;> by_cases h11 : a = 11 <;>
    simp_all [State.jobAt, State.chuteAt, State.station, ticking, demo, State.withPending, Table.find, online, weigh,
      chute, gate, eq_comm]

theorem test_hyps_MoneyLawKept : MoneyLaw ticking ∧ ∃ t, step ticking = .next t :=
  ⟨⟨by decide, ⟨_, rfl, by decide⟩, by decide⟩, ticking_steps⟩

theorem test_hyps_HoldLawKept : HoldLaw ticking ∧ ∃ t, step ticking = .next t := by
  refine ⟨?_, ticking_steps⟩
  constructor
  case chute =>
    intro h hh a ha
    have hh : h ∈ demo.bank.holds := hh
    simp only [demo, List.mem_cons, List.not_mem_nil, or_false] at hh
    rcases hh with rfl | rfl | rfl <;> simp at ha <;> subst ha <;> exact ⟨_, rfl, rfl, rfl⟩
  case job =>
    intro a d h
    rcases ticking_jobAt a d h with ⟨rfl, rfl⟩ | ⟨rfl, rfl⟩
    · exact ⟨_, List.mem_cons_self, rfl, rfl, rfl⟩
    · exact ⟨{ id := 3, account := 201, amount := 120, owner := .chute 6, at_ := noon }, by decide, rfl, rfl, rfl⟩
  all_goals decide

theorem test_hyps_CreditLawKept : CreditLaw ticking ∧ ∃ t, step ticking = .next t :=
  ⟨by constructor <;> decide, ticking_steps⟩

theorem ticking_rings (r : RingNo) : (ticking.ring r).Sound := by
  constructor
  case midway => intro o ho hm; cases r <;> simp_all [ticking, demo, State.withPending, State.ring, Four.get, ring1, Ring.reset]; subst ho; simp [offer] at hm
  all_goals cases r <;> decide

theorem test_hyps_ClaimLawKept : ClaimLaw ticking ∧ ∃ t, step ticking = .next t :=
  ⟨⟨ticking_rings, by decide, by decide⟩, ticking_steps⟩

theorem test_hyps_LotStoreLawKept : LotStoreLaw ticking ∧ ∃ t, step ticking = .next t := by
  refine ⟨⟨by decide, by decide, by decide, by decide, ?_, ?_, ?_, by decide, by decide, by decide, ?_, ?_⟩, ticking_steps⟩
  · intro r; cases r <;> decide
  · intro r; cases r <;> decide
  · intro r n hn
    cases r <;> simp [ticking, demo, State.withPending, State.ring, Four.get, ring1, Ring.reset] at hn
    subst hn; exact ⟨_, rfl, rfl, rfl⟩
  · intro x hx hs
    have hx : x ∈ demo.lotStore.lots := hx
    simp only [demo, List.mem_cons, List.not_mem_nil, or_false] at hx
    rcases hx with rfl | rfl
    · exact ⟨by decide, _, rfl, rfl⟩
    · exact absurd hs (by decide)
  · intro r o ho hs
    cases r <;> simp [ticking, demo, State.withPending, State.ring, Four.get, ring1, Ring.reset] at ho
    subst ho; exact ⟨_, rfl, rfl, rfl⟩

theorem test_hyps_LotFiguresAndPricesKept : LotFigures ticking ∧ PriceLaw ticking ∧ ∃ t, step ticking = .next t := by
  refine ⟨⟨?_, ?_⟩, ⟨by decide, ?_⟩, ticking_steps⟩
  · intro x hx
    have hx : x ∈ demo.lotStore.lots := hx
    simp only [demo, List.mem_cons, List.not_mem_nil, or_false] at hx
    rcases hx with rfl | rfl <;> constructor <;> decide
  · intro x hx
    have hx : x ∈ demo.stations := hx
    simp only [demo, List.mem_cons, List.not_mem_nil, or_false] at hx
    rcases hx with rfl | rfl | rfl | rfl | rfl | rfl <;>
      simp [online, weigh, chute, gate, drafting, idleChannel, draft, Device.draftsCrates]
  · intro r o ho
    cases r <;> simp [ticking, demo, State.withPending, State.ring, Four.get, ring1, Ring.reset] at ho
    subst ho; decide

theorem test_hyps_CrateLawKept : CrateLaw ticking ∧ ∃ t, step ticking = .next t := by
  refine ⟨⟨by decide, by decide, by decide, by decide, by decide, by decide, ?_, ?_, by decide, by decide, by decide,
    ?_, ?_⟩, ticking_steps⟩
  · intro x hx
    have hx : x ∈ demo.lotStore.lots := hx
    simp only [demo, List.mem_cons, List.not_mem_nil, or_false] at hx
    rcases hx with rfl | rfl <;> exact ⟨by decide, by decide⟩
  · intro x hx n t hn
    have hx : x ∈ demo.stations := hx
    simp only [demo, List.mem_cons, List.not_mem_nil, or_false] at hx
    rcases hx with rfl | rfl | rfl | rfl | rfl | rfl <;>
      simp [online, weigh, chute, gate, drafting, idleChannel, draft, session, Device.names] at hn <;>
      (obtain ⟨rfl, rfl⟩ := hn; exact ⟨by decide, by decide⟩)
  · intro x hx t ht
    have hx : x ∈ demo.bank.accounts := hx
    simp only [demo, List.mem_cons, List.not_mem_nil, or_false] at hx
    have h1 : t ≠ 1 := by intro h; subst h; exact absurd ht (by decide)
    rcases hx with rfl | rfl | rfl <;>
      simp [Account.crateBalance, Table.find, Account.hallReset, boat, buyer, Ne.symm h1]
  · intro t c ht
    have h1 : t = 1 := by
      by_cases h : t = 1
      · exact h
      · simp [ticking, demo, State.withPending, Table.find, Ne.symm h] at ht
    subst h1
    have : c = { tare := 185, deposit := 250, pool := 3000, store := 2885, shortfall := 0, residue := 0 } := by
      simpa [ticking, demo, State.withPending, Table.find, eq_comm] using ht
    subst this; decide

theorem test_hyps_ScrewLawKept : ScrewLaw ticking ∧ ∃ t, step ticking = .next t := by
  refine ⟨⟨by decide, by decide, ?_, ?_, ?_, ?_, ?_⟩, ticking_steps⟩
  · intro a
    constructor
    · intro h
      have : a = 6 := by simpa [ticking, demo, State.withPending] using h
      subst this; exact ⟨_, rfl, by decide⟩
    · rintro ⟨d, hd, hs⟩
      rcases ticking_jobAt a d hd with ⟨rfl, rfl⟩ | ⟨rfl, rfl⟩
      · exact absurd hs (by decide)
      · decide
  · intro a d hd hs
    rcases ticking_jobAt a d hd with ⟨rfl, rfl⟩ | ⟨rfl, rfl⟩
    · decide
    · exact absurd hs (by decide)
  · intro a d hd hs
    rcases ticking_jobAt a d hd with ⟨rfl, rfl⟩ | ⟨rfl, rfl⟩ <;> exact absurd hs (by decide)
  · intro a b d e hd he hs
    rcases ticking_jobAt a d hd with ⟨rfl, rfl⟩ | ⟨rfl, rfl⟩ <;> exact absurd hs (by decide)
  · intro a ha
    have : a = 5 := by simpa [ticking, demo, State.withPending, Screw.served, eq_comm] using ha
    subst this; exact ⟨_, rfl, by decide⟩

theorem test_hyps_OperatingLawKept : OperatingLaw ticking ∧ ∃ t, step ticking = .next t :=
  ⟨⟨by decide, fun h => absurd h (by decide), by decide, by decide, by decide⟩, ticking_steps⟩

theorem ticking_accounts : ∀ x ∈ ticking.bank.accounts, x.2.Sound := by
  intro x hx
  have hx : x ∈ demo.bank.accounts := hx
  simp only [demo, List.mem_cons, List.not_mem_nil, or_false] at hx
  rcases hx with rfl | rfl | rfl <;>
    exact ⟨by decide, by unfold inBounds; decide, by decide, by unfold inBounds; decide, by decide, by constructor <;> decide⟩

theorem ticking_inRange : RangeLaw ticking := by
  constructor
  case accounts => exact ticking_accounts
  case types =>
    intro x hx
    have : x = (1, { tare := 185, deposit := 250, pool := 3000, store := 2885, shortfall := 0, residue := 0 }) := by
      simpa [ticking, demo, State.withPending] using hx
    subst this; constructor <;> decide
  case hall => intro h hh; obtain rfl : hall = h := by simpa [ticking, demo, State.withPending] using hh
               decide
  case quay => constructor <;> decide
  case floor => constructor <;> decide
  case office => constructor <;> decide
  all_goals decide

theorem test_hyps_TablesAndRangesKept :
    TablesLaw ticking ∧ IndexLaw ticking ∧ RangeLaw ticking ∧ ∃ t, step ticking = .next t :=
  ⟨by constructor <;> decide, by constructor <;> decide, ticking_inRange, ticking_steps⟩

/-! ### The envelope, the clock and the lines -/

theorem test_hyps_FrameRoundTrip : (reply 3 (List.replicate 120 0xF7)).payload.length ≤ 120 := by decide

theorem test_hyps_TickRule : (demo.clock.tod ≠ 86399999 ∧ { demo.clock with tod := 86399999 }.tod = 86399999)
    ∧ demo.jobAt 6 = some request ∧ (demo.gateAt 9).isSome ∧ (demo.weighAt 4).isSome
    ∧ demo.poller.state ≠ .listen ∧ listening.poller.state = .listen := by decide

def goodWire : List Byte := frameWire (reply 3 [0, 0x7A, 0x0F, 0, 0])
def badWire : List Byte := goodWire ++ [0]
def stopWire (p : List Byte) : List Byte := frameWire { dst := 0, src := 99, kind := 0x11, payload := p }

theorem test_hyps_FrameEndJudged : (judge demo.floor badWire false).any = true
    ∧ (judge demo.floor (stopWire [1, 1, 5]) false).any = false ∧ (judge demo.floor (stopWire [1]) false).any = false
    ∧ demo.floorLine.cond ≠ .silent ∧ demo.hall = some hall
    ∧ (judge demo.quay badWire false).any = true ∧ listening.awaited = none ∧ demo.awaited = some 3
    ∧ (judge demo.quay goodWire false).any = false ∧ (judge demo.office goodWire true).any = true := by decide

theorem test_hyps_LineBreakEnters : demo.par.breakTime = 100 ∧ demo.hall = some hall ∧ demo.quay.inBreak = false
    ∧ demo.office.inBreak = false ∧ demo.floor.inBreak = false ∧ demo.poller.state = .polling
    ∧ listening.poller.state = .listen ∧ State.reset.poller.state = .off ∧ State.reset.hall = none
    ∧ demo.floorLine.cond = .up ∧ (demo.ring .r1).state = .descending ∧ (demo.ring .r2).state ≠ .leadIn
    ∧ (leading 2 0).floorLine.cond = .up ∧ ((leading 2 0).ring .r1).state = .leadIn
    ∧ (listening.gateAt 9).map (fun x => x.2.session) = some (some session) ∧ listening.awaited = none
    ∧ demo.awaited = some 3 ∧ (demo.station 3).map (fun st => st.device) = some (weigh idleChannel) := by decide

/-- The demo state with each line in BREAK, the poller and the floor condition as given, and ring 1 HELD. -/
def broken (p : PollerState) (elapsed : Nat) (office floor : Bool) : State :=
  { held office floor with
    quay := { Port.reset with inBreak := true }, floor := { Port.reset with inBreak := true },
    office := { Port.reset with inBreak := true }, poller := { Poller.reset with state := p },
    floorLine := { cond := .broken, silence := some { elapsed := elapsed, limit := 500 } } }

theorem test_hyps_BreakEndLeaves : demo.quay.inBreak = false ∧ (∀ l, ((broken (.broken .polling) 0 false true).port l).inBreak = true)
    ∧ (broken (.broken .polling) 0 false true).poller.state = .broken .polling
    ∧ (broken (.broken .listen) 0 false true).poller.state = .broken .listen
    ∧ (broken .polling 0 false true).poller.state.isBroken = false
    ∧ timerDue (broken .polling 500 false true).floorLine.silence = true
    ∧ timerDue (broken .polling 499 false true).floorLine.silence = false
    ∧ ((broken .polling 0 false true).ring .r1).state = .held ∧ ((broken .polling 0 true true).ring .r1).heldOffice = true
    ∧ ((broken .polling 0 false true).ring .r1).heldFloor = true
    ∧ ((broken .polling 0 false true).ring .r1).offer = some offer ∧ 0 < offer.profile.resumePause
    ∧ ((broken .polling 0 false true).setRing .r1 (Ring.reset.hold false true)).rings.a1.offer = none
    ∧ ((broken .polling 0 false true).ring .r2).state ≠ .held :=
  ⟨by decide, fun l => by cases l <;> decide, by and_intros <;> decide⟩

/-- The demo state with a frame on each line, one more waiting or none, and the poll in a phase. -/
def sending (stage : Option Frame) (phase : PollPhase) : State :=
  let p : Port := { Port.reset with onLine := some (reply 1 []), stage := stage }
  { demo with quay := p, floor := p, office := p,
              poller := { demo.poller with poll := some { station := 4, phase := phase } },
              boards := { demo.boards with answers := [Ring.reset.answerNow .r1 1 .late] } }

theorem test_hyps_FrameSentMovesOn : demo.quay.onLine = none ∧ (sending (some (reply 2 [])) .due).quay.onLine ≠ none
    ∧ (sending (some (reply 2 [])) .due).quay.stage = some (reply 2 []) ∧ (sending none .due).quay.stage = none
    ∧ (sending none .due).poller.poll = some { station := 4, phase := .due }
    ∧ (sending none .onLine).poller.poll = some { station := 4, phase := .onLine }
    ∧ (sending (some (reply 2 [])) .staged).poller.poll = some { station := 4, phase := .staged }
    ∧ (sending none .due).floorLine.cond = .up ∧ (sending none .due).floor.stage = none
    ∧ (sending none .due).boards.answers.head? = some (Ring.reset.answerNow .r1 1 .late)
    ∧ (broken .polling 0 false true).floorLine.cond ≠ .up ∧ listening.poller.poll = none := by decide

def silent (elapsed : Nat) : State :=
  { demo with floorLine := { cond := .up, silence := some { elapsed := elapsed, limit := 500 } } }

theorem test_hyps_FloorSilenceHoldsRings : timerDue (silent 499).floorLine.silence = false
    ∧ timerDue (silent 500).floorLine.silence = true ∧ (silent 500).floorLine.cond = .up
    ∧ ((silent 500).ring .r1).state = .descending ∧ ((silent 500).ring .r2).state ≠ .descending
    ∧ ((silent 500).ring .r2).state ≠ .leadIn ∧ (broken .polling 0 false true).floorLine.cond ≠ .up := by decide

/-! ### The quay poller -/

/-- A cycle timer that has counted to a figure; no cycle in progress where there is no poll. -/
def wrapping (elapsed : Nat) (cycle : Option Bool) : State :=
  { demo with poller := { demo.poller with cycleTimer := some { elapsed := elapsed, limit := 250 }, cycle := cycle, poll := none } }

theorem test_hyps_CycleWrapStarts : listening.poller.state ≠ .polling
    ∧ (wrapping 249 none).poller.cycleTimer = some { elapsed := 249, limit := 250 }
    ∧ (wrapping 250 none).poller.cycleTimer = some { elapsed := 250, limit := 250 } ∧ (wrapping 250 none).poller.state = .polling
    ∧ (wrapping 250 (some false)).poller.cycle ≠ none ∧ (wrapping 250 none).poller.cycle = none
    ∧ { wrapping 250 none with stations := [] }.nextEnabled 0 = none ∧ (wrapping 250 none).nextEnabled 0 = some 3
    ∧ ((wrapping 250 none).station 3).isSome ∧ (wrapping 250 none).quay.stage = none ∧ (wrapping 250 none).quay.onLine = none
    ∧ { wrapping 250 none with quay := (sending none .due).quay }.quay.onLine ≠ none
    ∧ { wrapping 250 none with quay := (sending (some (reply 1 [])) .due).quay }.quay.stage ≠ none := by decide

def waited (elapsed misses : Nat) (live : Liveness) : State :=
  ({ demo with poller := { demo.poller with poll := some { station := 3, phase := .awaiting { elapsed := elapsed, limit := 5 } } } }).modStation 3
    (fun st => { st with misses := misses, live := live })

theorem test_hyps_ReplyTimeoutMisses : (waited 4 0 .online).replyDue = false ∧ (waited 5 2 .online).replyDue = true
    ∧ (waited 5 2 .online).awaited = some 3
    ∧ ((waited 5 2 .online).station 3).map (fun st => (st.enabled, st.live, st.misses)) = some (true, .online, 2)
    ∧ (waited 5 2 .online).par.missLimit ≤ min 15 (2 + 1) ∧ min 15 (1 + 1) < (waited 5 1 .online).par.missLimit
    ∧ ((waited 5 15 .offline).station 3).map (fun st => st.live) = some .offline := by decide

theorem test_hyps_QuayReplyHeard : demo.awaited = some 3
    ∧ (demo.station 3).map (fun st => (st.enabled, st.device.fits [0, 0x7A, 0x0F, 0, 0], st.device.fits [0, 0x7A, 0x0F, 0, 1]))
        = some (true, true, false)
    ∧ (reply 3 []).src.toNat = 3 ∧ (reply 3 []).kind = 0x02 ∧ demo.quay.rx = []
    ∧ { demo with quay := { demo.quay with rx := [reply 3 []] } }.quay.rx.head? = some (reply 3 [])
    ∧ { demo with poller := { demo.poller with cycle := some true } }.poller.cycle = some true
    ∧ (reply 0 []).src = 0 ∧ State.reset.poller.state = .off ∧ demo.awaited ≠ some (reply 4 []).src.toNat := by decide

def foreign : Frame := { dst := 4, src := 77, kind := 0x01, payload := [] }

theorem test_hyps_ForeignPollListens : foreign.kind = 0x01 ∧ ({ foreign with kind := 0x03 } : Frame).kind = 0x03 ∧ foreign.src ≠ 0
    ∧ demo.quay.rx = [] ∧ demo.poller.state = .polling ∧ listening.poller.state ≠ .polling
    ∧ demo.poller.poll = some { station := 3, phase := .awaiting { elapsed := 0, limit := 5 } } := by decide

theorem test_hyps_HeardReplyTaken : listening.poller.state = .listen ∧ demo.poller.state = .polling
    ∧ (listening.station 3).map (fun st => (st.enabled, st.device.fits [0, 0x7A, 0x0F, 0, 0], st.device.fits [1])) = some (true, true, false)
    ∧ (listening.weighAt 3).map (fun x => x.2.state) = some .idle
    ∧ ((withContext listening 9 (gate none)).gateAt 9).map (fun x => x.2.session) = some none
    ∧ ((withContext listening 5 (chute none)).chuteAt 5).map (fun x => x.2.job) = some none
    ∧ State.reset.poller.state = .off ∧ (PollerState.broken .listen).isBroken = true := by decide

theorem test_hyps_SilenceLosesStations : listening.par.missLimit * listening.par.cyclePeriod = 750
    ∧ ((listening.modStation 3 (fun st => { st with age := 749 })).station 3).map (fun st => (st.live, st.age)) = some (.online, 749)
    ∧ ((listening.modStation 3 (fun st => { st with age := 750 })).station 3).map (fun st => (st.live, st.age)) = some (.online, 750)
    ∧ demo.poller.state ≠ .listen ∧ demo.station 30 = none ∧ Table.Sorted demo.stations ∧ (demo.latchAt 6).count ≤ 255
    ∧ timerDue (some { elapsed := 750, limit := 750 }) = true ∧ timerDue (some { elapsed := 749, limit := 750 }) = false := by
  decide

/-! ### Weighing, ice and crates -/

/-- Station 4 with another tracker, its channel idle or drafting. -/
def tracked (t : Tracker) (st : ChannelState) : State := withContext demo 4 (weigh { tracker := t, state := st })
def weighCfg : WeighCfg := { capacity := 60000, stability := 3, band := 4 }

theorem test_hyps_TrackerReadsByRule : demo.weighAt 4 = some (weighCfg, drafting)
    ∧ drafting.tracker.previous = some 31246 ∧ (31250 - 31246 : Int).natAbs ≤ weighCfg.band
    ∧ weighCfg.band < (31251 - 31246 : Int).natAbs ∧ drafting.tracker.state = .moving
    ∧ drafting.tracker.counter + 1 = weighCfg.stability ∧ ({ drafting.tracker with counter := 1 } : Tracker).counter + 1 < weighCfg.stability
    ∧ idleChannel.tracker.previous = none
    ∧ ({ drafting.tracker with state := .stable, counter := 3, held := some { gross := 31246, at_ := noon } } : Tracker).state = .stable
    ∧ (demo.weighAt 3).map (fun x => x.2.state) = some .idle := by decide

/-- 60,001 is above the capacity; 2,220 leaves no fish; 2,236 leaves 16 wu less the allowance, rounded to 15; 2,230
leaves 10 wu, fewer than the 12 crates. -/
theorem test_hyps_CaptureRefusedLandsNothing : demo.weighAt 4 = some (weighCfg, drafting) ∧ drafting.state = .capture draft
    ∧ (weighCfg.capacity : Int) < 60001 ∧ (2220 : Int) - (draft.count * draft.tare : Nat) ≤ 0
    ∧ (((2230 : Int) - (draft.count * draft.tare : Nat)).toNat - ((2230 : Int) - (draft.count * draft.tare : Nat)).toNat * draft.m / draft.n)
        / draft.netStep * draft.netStep < draft.count := by decide

theorem test_hyps_CaptureLandsTheLot : demo.weighAt 4 = some (weighCfg, drafting) ∧ drafting.state = .capture draft
    ∧ demo.account draft.boat = some boat ∧ demo.account 0 = some { Account.hallReset with balance := -60000 }
    ∧ (60000 : Int) ≤ weighCfg.capacity ∧ 0 < (2236 : Int) - (draft.count * draft.tare : Nat)
    ∧ draft.count ≤ (draft.figures 2236).net ∧ draft.count ≤ (draft.figures 60000).net
    ∧ demo.lotStore.lots.length ≤ 256 ∧ 1 ≤ demo.lotStore.next ∧ demo.lotStore.next ≤ 65535 ∧ draft.boat ≠ 0
    ∧ Table.Sorted boat.crates := by decide
theorem test_hyps_CaptureLandsTheLot_bounds : inBounds (boat.crateBalance draft.ctype - draft.count)
    ∧ inBounds (boat.balance + (draft.deposit * draft.count : Nat)) ∧ inBounds ((-60000 : Int) - (draft.deposit * draft.count : Nat)) := by
  unfold inBounds; decide

theorem test_hyps_WaitsRunOut : demo.weighAt 4 = some (weighCfg, drafting) ∧ drafting.state = .capture draft
    ∧ draft.timer.elapsed < draft.timer.limit ∧ (demo.weighAt 3).map (fun x => x.2.state) = some .idle ∧ demo.weighAt 5 = none
    ∧ demo.jobAt 9 = none ∧ demo.jobAt 6 = some request ∧ demo.jobAt 5 = some dispense ∧ dispense.state ≠ .requested
    ∧ timerDue request.wait = false ∧ (waitedOut.jobAt 6).map (fun d => (d.state, timerDue d.wait, d.started)) = some (.requested, true, false) := by
  decide

/-- The demo state with the boat's crates, the lots in the table, the records and the claims as given. -/
def crowded (crates : Int) (lots records owed : Nat) : State :=
  { demo.modAccount 101 (fun a => { a with crates := [(1, crates)] }) with
    lotStore := { demo.lotStore with reserved := lots },
    queue := { demo.queue with records := List.replicate records { number := 1, body := .settlement 0 0 DayTotals.zero, at_ := noon },
                               owed := owed } }

/-- The limits of Table 2-3: 0 and 201 crates, 1 and 200; a balance of -200 and -201 after; 255 and 256 lots and
reservations; 127 and 128 records and claims. -/
theorem test_hyps_DraftItemJudged : demo.weighAt 3 = some (weighCfg, idleChannel) ∧ drafting.state ≠ .idle
    ∧ demo.account 101 = some boat ∧ demo.account 999 = none ∧ (demo.account 201).map (fun a => a.kind) = some .buyer
    ∧ (demo.speciesOf 1104).isSome ∧ demo.speciesOf 1105 = none ∧ (demo.crateTypes.find 1).isSome ∧ demo.crateTypes.find 2 = none
    ∧ -((boat.overdraft.getD 0 : Nat) : Int) ≤ (0 : Int) - 200
    ∧ ((crowded (-1) 0 0 0).account 101).map (fun a => decide (a.crateBalance 1 - 200 < -((a.overdraft.getD 0 : Nat) : Int))) = some true
    ∧ (crowded 0 253 0 0).lotStore.lots.length + (crowded 0 253 0 0).lotStore.reserved < 256
    ∧ 256 ≤ (crowded 0 254 0 0).lotStore.lots.length + (crowded 0 254 0 0).lotStore.reserved
    ∧ (crowded 0 0 0 127).queue.records.length + (crowded 0 0 0 127).queue.owed < 128
    ∧ 128 < (crowded 0 0 1 127).queue.records.length + (crowded 0 0 1 127).queue.owed + 1
    ∧ idleChannel.tracker.state ≠ .stable := by decide

/-- The tracker STABLE at 31,247 wu. -/
def steady : Tracker := { state := .stable, counter := 3, previous := some 31247, held := some { gross := 31247, at_ := noon } }

/-- An idle channel with its tracker STABLE and one in CAPTURE a reading short of it; a reading 4 wu and one 5 wu off;
a draft that finds no claim, and one that finds neither lot entry nor claim. -/
theorem test_hyps_DraftItemJudged_captures : (tracked steady .idle).weighAt 4 = some (weighCfg, { tracker := steady, state := .idle })
    ∧ (tracked steady .idle).account 101 = some boat ∧ (tracked steady .idle).lotStore.lots.length + (tracked steady .idle).lotStore.reserved < 256
    ∧ (tracked steady .idle).queue.records.length + (tracked steady .idle).queue.owed < 128
    ∧ demo.weighAt 4 = some (weighCfg, drafting) ∧ drafting.state = .capture draft ∧ drafting.tracker.state = .moving
    ∧ (31250 - 31246 : Int).natAbs ≤ weighCfg.band ∧ drafting.tracker.counter + 1 = weighCfg.stability
    ∧ drafting.tracker.previous.any (fun p => decide (weighCfg.band < (31251 - p).natAbs)) = true
    ∧ (crowded 0 253 1 127).lotStore.lots.length + (crowded 0 253 1 127).lotStore.reserved < 256
    ∧ 256 ≤ (crowded 0 254 1 127).lotStore.lots.length + (crowded 0 254 1 127).lotStore.reserved := by decide
theorem test_hyps_DraftItemJudged_not_drafting : ∀ d, idleChannel.state ≠ .capture d := by
  intro d h; cases h

/-- An accepted draft at a STABLE tracker: ANSWER ACCEPTED stands before the RESULT, and lot 3 has landed. -/
theorem test_draft_at_a_stable_tracker :
    (((tracked steady .idle).draftItem 4 101 1104 1 12).station 4).map (fun st => st.commands)
        = some [.answer .accepted, .resultCaptured 3 28155]
      ∧ (((tracked steady .idle).draftItem 4 101 1104 1 12).lot 3).map (fun l => l.netRemaining) = some 28155 := by decide
/-- RECORDS_FULL where a claim is wanting, and nothing where a lot entry is. -/
theorem test_draft_full : (((crowded 0 253 1 127).draftItem 3 101 1104 1 12).latchAt 5).subject = some (.station 3)
    ∧ ((crowded 0 254 1 127).draftItem 3 101 1104 1 12).latchAt 5 = Latch.clear := by decide

/-- The limits of Table 5-3: 0 and 10,001 kg, 1 and 10,000; 15 and 16 holds; credit for 12 cents and for 11. -/
theorem test_hyps_IceRequestJudged : ((withContext demo 5 (chute none)).chuteAt 5).map (fun x => x.2.job) = some none
    ∧ (demo.chuteAt 5).map (fun x => x.2.job) = some (some dispense) ∧ demo.account 201 = some buyer ∧ demo.account 999 = none
    ∧ buyer.state = .opened ∧ demo.icePrice buyer = 12 ∧ ({ buyer with balance := -99578 } : Account).available = 12
    ∧ ({ buyer with balance := -99579 } : Account).available < 12 ∧ demo.bank.holds.length < 16
    ∧ 16 ≤ (demo.bank.holds ++ List.replicate 13 (Hold.mk 9 201 1 .office noon)).length
    ∧ demo.queue.records.length + demo.queue.owed < 128 ∧ ({ buyer with state := .stopped } : Account).state = .stopped
    ∧ { demo with hall := some { hall with iceBuyers := 0 } }.icePrice buyer = 0 := by decide

/-- Chute 6 IDLE, of class 5, beside the running chute 5 of run level 4. -/
def rival : State :=
  { withContext demo 6 (.chute { cls := 5, runLevel := 5 } { tag := 9, job := none }) with ice := { demo.ice with latch := [] } }

/-- A class above the run level and one equal to it; a claim and a hold that are wanting. -/
theorem test_hyps_IceRequestJudged_preempts : (rival.chuteAt 6).map (fun x => (x.1.cls, x.2.job)) = some (5, none)
    ∧ rival.jobAt 5 = some dispense ∧ rival.ice.screw = .running 5 ∧ dispense.state = .running ∧ rival.poller.state = .polling
    ∧ max dispense.runLevel rival.ice.effFloor < 5 ∧ ¬ max dispense.runLevel rival.ice.effFloor < 4
    ∧ demo.ice.latch.any (fun y => (demo.jobAt y).any (fun z => decide (max dispense.runLevel demo.ice.effFloor < z.cls))) = true
    ∧ listening.poller.state = .listen ∧ screwFree.ice.screw = .idle
    ∧ 128 < (crowded 0 0 1 127).queue.records.length + (crowded 0 0 1 127).queue.owed + 1
    ∧ (crowded 0 0 1 127).bank.holds.length < 16 := by decide

theorem test_hyps_RunEndChargesTheDispense : (demo.chuteAt 5).map (fun x => x.2.job) = some (some dispense)
    ∧ demo.account dispense.account = some buyer ∧ (demo.account 0).map (fun a => a.balance) = some (-60000)
    ∧ (demo.holdOf dispense.hold).map (fun h => h.account) = some dispense.account ∧ dispense.state = .running
    ∧ dispense.started = true ∧ dispense.current ≤ 5 ∧ dispense.account ≠ 0 ∧ buyer.state = .opened
    ∧ demo.ice.screw = .running 5 ∧ dispense.granted ≤ dispense.delivered + 17 ∧ ¬ dispense.granted ≤ dispense.delivered + 16 := by
  decide
theorem test_hyps_RunEndChargesTheDispense_bounds :
    inBounds (buyer.balance - ((dispense.delivered + 17) * dispense.price : Nat))
      ∧ inBounds ((-60000 : Int) + ((dispense.delivered + 17) * dispense.price : Nat)) := by unfold inBounds; decide

theorem test_hyps_ScrewGrantRuns : demo.ice.screw ≠ .idle ∧ screwFree.ice.screw = .idle ∧ screwFree.poller.state = .polling
    ∧ (screwFree.chuteAt 6).map (fun x => x.2.job) = some (some request) ∧ screwFree.ice.latch = [] ++ 6 :: []
    ∧ screwFree.ice.effFloor < request.cls ∧ screwFree.accountStopped request.account = false ∧ request.started = false
    ∧ (screwFree.modAccount 201 (fun a => { a with state := .stopped })).accountStopped request.account = true
    ∧ listening.poller.state = .listen ∧ { screwFree with ice := { screwFree.ice with officeFloor := 5 } }.ice.effFloor = 5 := by
  decide

/-- Two requests of class 5 that never started, chute 5's in front, their account STOPPED. -/
def stoppedTwo : State :=
  { (withContext demo 5 (chute (some { request with hold := 1, latchOrder := 0 }))).modAccount 201
      (fun a => { a with state := .stopped }) with ice := { demo.ice with screw := .idle, latch := [5, 6] } }
theorem test_hyps_ScrewGrantRuns_cancels : stoppedTwo.ice.screw = .idle ∧ stoppedTwo.poller.state = .polling
    ∧ stoppedTwo.ice.latch = [] ++ 5 :: [6] ∧ (stoppedTwo.jobAt 5).map (fun d => (d.cls, d.started)) = some (5, false)
    ∧ stoppedTwo.jobAt 6 = some request ∧ stoppedTwo.ice.effFloor < 5 ∧ stoppedTwo.accountStopped 201 = true := by decide
/-- Both are cancelled by the one SCREW_GRANT, in their order. -/
theorem test_screwGrant_decides_again : (after .screwGrant stoppedTwo).ice.latch = []
    ∧ (after .screwGrant stoppedTwo).queue.records.map (fun r => r.body)
        = [.ice 1 201 30 10 0 0 .stopped buyer.flags, .ice 2 201 30 10 0 0 .stopped buyer.flags] := by decide

/-- The screw DRY while the chute at station 5 is ENDING. -/
def dried (o : PendingOutcome) : State :=
  { withContext demo 5 (chute (some { dispense with state := .ending, pendingOutcome := some o })) with
    ice := { demo.ice with screw := .dry } }
theorem test_hyps_BinReadingTaken_leaves_dry : (dried .end_).ice.screw = .dry ∧ Table.Sorted (dried .end_).stations
    ∧ ((dried .end_).jobAt 5).map (fun d => (d.state, d.pendingOutcome)) = some (.ending, some .end_)
    ∧ ((dried (.suspend .dry)).jobAt 5).map (fun d => (d.state, d.pendingOutcome)) = some (.ending, some (.suspend .dry)) := by
  decide
theorem test_hyps_BinReadingTaken_one_ending (o : PendingOutcome) (x : Nat) (e : Dispense)
    (h : (dried o).jobAt x = some e) (he : e.state = .ending) : x = 5 := by
  by_cases h3 : x = 3 <;> by_cases h4 : x = 4 <;> by_cases h6 : x = 6 <;> by_cases h9 : x = 9 <;> by_cases h11 : x = 11 <;>
    by_cases h5 : x = 5 <;> simp_all [State.jobAt, State.chuteAt, State.station, dried, withContext, State.modStation,
      Station.withDevice, demo, Table.find, Table.modify, online, weigh, chute, gate, request, eq_comm]
theorem test_binReading_leaves_dry : ((dried .end_).binReading 11 60 false).ice.screw = .running 5
    ∧ ((dried (.suspend .dry)).binReading 11 60 false).ice.screw = .switching 5 := by decide

/-- A reading that makes the bin LOW raises the floor to 3, and class 5 waits over run level 4; with a reserve level of 5
none is above the floor; the readings of 20 and of a bin that is not LOW leave the floor. -/
theorem test_hyps_BinReadingTaken_preempts : demo.ice.screw = .running 5 ∧ demo.jobAt 5 = some dispense
    ∧ demo.poller.state = .polling ∧ (demo.binReading 11 19 false).ice.effFloor = 3 ∧ demo.ice.effFloor = 0
    ∧ demo.ice.latch.any (fun x => (demo.jobAt x).any (fun e => decide (max dispense.runLevel 3 < e.cls))) = true
    ∧ ({ demo with hall := some { hall with reserveLevel := 5 } }.binReading 11 19 false).ice.effFloor = 5
    ∧ demo.ice.latch.any (fun x => (demo.jobAt x).any (fun e => decide (max dispense.runLevel 5 < e.cls))) = false
    ∧ (demo.binReading 11 20 false).ice.effFloor = 0 ∧ listening.poller.state = .listen := by decide
theorem test_hyps_BinReadingTaken_no_run : screwFree.ice.screw ≠ .dry
    ∧ ∀ b d, screwFree.ice.screw = .running b → screwFree.jobAt b = some d → d.state ≠ .running :=
  ⟨by decide, fun _ _ h => nomatch h⟩

theorem test_hyps_BinReadingTaken : min 100 19 < demo.par.lowMark ∧ ¬ min 100 20 < demo.par.lowMark
    ∧ demo.par.resumeMark ≤ min 100 30 ∧ ¬ demo.par.resumeMark ≤ min 100 29 ∧ demo.ice.low = false ∧ demo.ice.screw = .running 5
    ∧ (demo.chuteAt 5).map (fun x => x.2.job) = some (some dispense) ∧ dispense.state = .running
    ∧ { demo with ice := { demo.ice with screw := .dry } }.ice.screw = .dry ∧ Table.Sorted demo.stations := by decide
theorem test_hyps_BinReadingTaken_not_ending : ∀ b d, ticking.jobAt b = some d → d.state ≠ .ending := by
  intro b d h
  rcases ticking_jobAt b d h with ⟨rfl, rfl⟩ | ⟨rfl, rfl⟩ <;> decide

/-- The limits of Table 6-5 and R129: counts of 9,999 and 10,000. -/
theorem test_hyps_GateSessionOpensAndCounts : ((withContext demo 9 (gate none)).gateAt 9).map (fun x => (x.1, x.2.session)) = some (.both, none)
    ∧ (demo.gateAt 9).map (fun x => (x.2.session, x.2.tag)) = some (some session, 6) ∧ demo.account 201 = some buyer
    ∧ demo.account 999 = none ∧ demo.crateTypes.find 1 ≠ none ∧ demo.crateTypes.find 2 = none ∧ GateDirection.both ≠ .out
    ∧ GateDirection.both ≠ .into ∧ buyer.state = .opened ∧ demo.queue.records.length + demo.queue.owed < 128
    ∧ 128 < (crowded 0 0 1 127).queue.records.length + (crowded 0 0 1 127).queue.owed + 1
    ∧ session.count ≤ min 9999 4 ∧ session.count < min 9999 9999 ∧ 9999 < 10000 ∧ session.clamped = false := by decide

theorem test_hyps_GateIdleCloses : (demo.gateAt 9).map (fun x => x.2.session) = some (some session) ∧ demo.gateAt 5 = none
    ∧ ((withContext demo 9 (gate none)).gateAt 9).map (fun x => x.2.session) = some none
    ∧ session.idle.elapsed < session.idle.limit ∧ (idledOut.gateAt 9).map (fun x => x.2.session.map (fun y => decide (y.idle.limit ≤ y.idle.elapsed))) = some (some true)
    ∧ idledOut.poller.state ≠ .listen ∧ idledOut.account session.account = some buyer ∧ session.dir = .out ∧ session.account ≠ 0
    ∧ (idledOut.crateTypes.find 1).map (fun c => (decide (session.count ≤ c.store), decide (c.store + session.count ≤ storeBound))) = some (true, true)
    ∧ Table.Sorted buyer.crates ∧ ({ session with dir := .into } : Session).dir = .into ∧ 3 < session.count := by decide
theorem test_hyps_GateIdleCloses_bounds : inBounds (buyer.balance - (session.count * demo.depositOf session.ctype : Nat))
    ∧ inBounds (buyer.balance + (session.count * demo.depositOf session.ctype : Nat)) := by unfold inBounds; decide

/-! ### The rings -/

/-- The demo state with a full or empty answer queue. -/
def answering (n : Nat) : State :=
  { demo with boards := { demo.boards with answers := List.replicate n (Ring.reset.answerNow .r1 1 .late) },
              floorLine := { demo.floorLine with cond := .broken } }

theorem test_hyps_FloorStopTaken : stop17.kind = 0x11 ∧ stop17.dst = 0 ∧ demo.floor.rx = [] ∧ demo.floorLine.cond = .up
    ∧ { demo with floor := { demo.floor with rx := [stop17] } }.floor.rx.head? = some stop17
    ∧ ({ stop17 with payload := [1, 1] } : Frame).payload.length ≠ 3 ∧ stop17.payload.length = 3
    ∧ RingNo.ofNum (fieldAt stop17.payload 1 1) = some .r1 ∧ 1 ≤ fieldAt stop17.payload 0 1
    ∧ fieldAt ({ stop17 with payload := [64, 1, 5] } : Frame).payload 0 1 ≤ 64 ∧ 64 < fieldAt ({ stop17 with payload := [65, 1, 5] } : Frame).payload 0 1
    ∧ (demo.ring .r1).state = .descending ∧ (demo.ring .r1).offer = some offer
    ∧ (resolving.ring .r1).state = .resolving ∧ ((resolving.ring .r1).offer.map (fun o => o.slot2)) = some none
    ∧ (resolving.ring .r1).offer.map (fun o => o.slot1.any (fun z => z.keypad == 2)) = some false
    ∧ (answering 15).boards.answers.length < 16 ∧ 16 ≤ (answering 16).boards.answers.length ∧ (answering 0).floorLine.cond ≠ .up
    ∧ { demo with floor := { Port.reset with onLine := some stop17 } }.floor.onLine ≠ none
    ∧ misfitStops (({ demo with floor := { Port.reset with rx := [stop17, { stop17 with dst := 5, payload := [1] }] } } : State).floor.rx.drop 1)
      = 1 := by decide

theorem test_hyps_OfferStarts : (demo.ring .r2).queue.head? = some 2 ∧ demo.lot 2 = some lot2 ∧ (demo.ring .r2).state = .waiting
    ∧ (demo.ring .r2).heldOffice = false ∧ (demo.ring .r2).heldFloor = false ∧ (demo.ring .r2).stall = .none
    ∧ (demo.ring .r1).state ≠ .waiting ∧ (demo.ring .r3).queue = [] ∧ (answering 0).floorLine.cond ≠ .up
    ∧ demo.floorLine.cond = .up ∧ demo.profileFor lot2 = some profile ∧ { demo with profiles := [] }.profileFor lot2 = none
    ∧ 128 < (crowded 0 0 0 127).queue.records.length + (crowded 0 0 0 127).queue.owed + 2
    ∧ (crowded 0 0 0 126).queue.records.length + (crowded 0 0 0 126).queue.owed + 2 ≤ 128 ∧ 0 < profile.leadIn := by decide

theorem test_hyps_LeadInEnds : ((leading 1 0).ring .r1).state = .leadIn ∧ ((leading 1 0).ring .r1).claims < 2
    ∧ 2 ≤ ((leading 2 0).ring .r1).claims ∧ (demo.ring .r1).state ≠ .leadIn
    ∧ (crowded 0 0 0 127).queue.records.length + (crowded 0 0 0 127).queue.owed + (2 - 1) ≤ 128
    ∧ 128 < (crowded 0 0 0 128).queue.records.length + (crowded 0 0 0 128).queue.owed + (2 - 1)
    ∧ ((leading 1 0).ring .r1).stall ≠ .claims ∧ timerDue ((leading 2 39).ring .r1).timer = false
    ∧ timerDue ((leading 2 40).ring .r1).timer = true ∧ ((leading 2 40).ring .r1).claims = 2 ∧ ((leading 1 40).ring .r1).claims ≠ 2
    ∧ (((leading 1 0).modRing .r1 (fun x => { x with stall := .claims })).ring .r1).stall = .claims := by decide

theorem test_hyps_StepWrapFalls : ((falling 412).ring .r1).state = .descending ∧ (demo.ring .r2).state ≠ .descending
    ∧ ((falling 301).ring .r1).offer.map (fun o => decide (o.price ≠ o.effFloor)) = some true
    ∧ ((falling 300).ring .r1).offer.map (fun o => decide (o.price = o.effFloor)) = some true
    ∧ ((falling 412).ring .r1).timer = some { elapsed := 100, limit := 100 } ∧ (demo.ring .r1).timer = some { elapsed := 0, limit := 100 }
    ∧ (falling 300).lot 1 = some lot1 ∧ lot1.offers ≤ (falling 300).par.reofferLimit
    ∧ (falling 300).par.reofferLimit < ({ lot1 with offers := 2 } : Lot).offers
    ∧ demo.account lot1.boat = some boat ∧ lot1.boat ≠ 0 ∧ Table.Sorted boat.crates := by decide
theorem test_hyps_StepWrapFalls_bounds : inBounds (boat.crateBalance lot1.ctype + lot1.remaining)
    ∧ inBounds (boat.balance - (demo.depositOf lot1.ctype * lot1.remaining : Nat))
    ∧ inBounds ((-60000 : Int) + (demo.depositOf lot1.ctype * lot1.remaining : Nat)) := by unfold inBounds; decide

/-- The stop of ring 1 with 5 crates left on the lot. -/
def lastCrates : State := resolving.modLot 1 (fun l => { l with remaining := 5, netRemaining := 11731 })

theorem test_hyps_ResolutionEnds : (resolving.ring .r1).state = .resolving ∧ timerDue (resolving.ring .r1).timer = true
    ∧ (demo.ring .r1).state ≠ .resolving ∧ (resolving.ring .r1).offer.isSome ∧ Table.Sorted resolving.lotStore.lots
    ∧ (resolving.ring .r1).holdPending = false ∧ resolving.floorLine.cond = .up ∧ 0 < offer.profile.resumePause
    ∧ 0 < offer.profile.afterSale ∧ ((after (.resolveExpiry .r1) resolving).lot 1).isSome
    ∧ (after (.resolveExpiry .r1) lastCrates).lot 1 = none := by decide

theorem test_hyps_SlotJudgedAndSold : demo.lot offer.lot = some lot1 ∧ demo.boards.answers.length < 16
    ∧ demo.keypads.find 1 = some { enabled := true, account := some 201, rings := { a1 := true, a2 := true, a3 := false, a4 := false } }
    ∧ demo.keypads.find 2 = none ∧ demo.account 201 = some buyer ∧ demo.account 101 = some boat
    ∧ (demo.account 0).map (fun a => a.balance) = some (-60000) ∧ buyer.kind = .buyer ∧ buyer.state = .opened ∧ buyer.number ≠ lot1.boat
    ∧ buyer.number ≠ 0 ∧ lot1.boat ≠ 0 ∧ 1 ≤ lot1.remaining ∧ affordable sale1 buyer.available 5 = 5
    ∧ affordable sale1 9000 12 = 0 ∧ Table.Sorted buyer.crates := by decide
theorem test_hyps_SlotJudgedAndSold_bounds : inBounds (buyer.crateBalance lot1.ctype + (5 : Nat))
    ∧ inBounds (buyer.balance - (sale1.figures 5).charge) ∧ inBounds (boat.balance + (sale1.figures 5).boatCredit)
    ∧ inBounds ((-60000 : Int) + (sale1.figures 5).charge)
    ∧ inBounds ((-60000 : Int) + (sale1.figures 5).charge - (sale1.figures 5).boatCredit) := by unfold inBounds; decide

theorem test_hyps_AfterSaleAndPaceEnd : (afterSale.ring .r1).state = .afterSale ∧ timerDue (afterSale.ring .r1).timer = true
    ∧ (afterSale.ring .r1).holdPending = false ∧ (demo.ring .r1).state ≠ .afterSale
    ∧ ((afterSale.modRing .r1 (fun x => { x with holdPending := true })).ring .r1).holdPending = true
    ∧ timerDue (demo.slot .r1).pace = false
    ∧ timerDue ((demo.setSlot .r1 { BoardSlot.reset with pace := some { elapsed := 300, limit := 300 } }).slot .r1).pace = true
    ∧ (answering 0).floorLine.cond ≠ .up := by decide

/-! ### Arithmetic -/

theorem test_hyps_SoldNetAndLevies : (1 ≤ 5 ∧ 5 ≤ 12 ∧ 12 ≤ 28155) ∧ (1 ≤ 12 ∧ 12 ≤ 12 ∧ 12 ≤ 12) ∧ (∀ k ∈ [1, 1, 1], 1 ≤ k) ∧ [1, 1, 1].sum = 3
    ∧ 50 ≤ 150 * 1 % 100 ∧ 149 * 1 % 100 ≤ 49 ∧ 49 * 1 < 50 ∧ 2000 ≤ 2000 := by decide

theorem test_hyps_AffordableCountIsLargest : sale1.sellerRate ≤ 2000 ∧ clampWanted 0 12 = 12 ∧ clampWanted 13 12 = 12 ∧ clampWanted 12 12 = 12
    ∧ affordable sale1 30000 (clampWanted 5 12) = 3 ∧ affordable sale1 30000 (clampWanted 5 12) < 4 ∧ 4 ≤ clampWanted 5 12
    ∧ 11 ≤ 12 ∧ 12 ≤ sale1.cratesRemaining := by decide

/-! ### The management unit -/

/-- An office frame is taken where the transmit stage is empty and the receive stage is empty or begins with it. -/
theorem takes_demo (f : Frame) : demo.takes f := ⟨rfl, .inl rfl⟩
theorem takes_reset (f : Frame) : State.reset.takes f := ⟨rfl, .inl rfl⟩
theorem takes_listening (f : Frame) : listening.takes f := ⟨rfl, .inl rfl⟩

theorem test_hyps_OfficeFramesAnswered : (Instr.settle 200 [0, 101]).wellFormed = true
    ∧ officeFrame (.settle 200 [0, 101]) = some (requestFrame 200 0x27 [0, 101]) ∧ demo.takes (requestFrame 200 0x27 [0, 101])
    ∧ { demo with office := { Port.reset with rx := [requestFrame 200 0x27 [0, 101]] } }.takes (requestFrame 200 0x27 [0, 101])
    ∧ { demo with office := { Port.reset with stage := some (reply 1 []) } }.office.stage ≠ none
    ∧ { demo with office := { Port.reset with rx := [reply 1 []] } }.office.rx.head? ≠ some (requestFrame 200 0x27 [0, 101])
    ∧ (Instr.settle 200 [101]).wellFormed = true ∧ misfit (.settle 200 [101]) ∧ ¬ misfit (.settle 200 [0, 101])
    ∧ [reply 1 []].length < 2 ∧ 2 ≤ [reply 1 [], reply 2 []].length ∧ (List.replicate 120 (0 : Byte)).length ≤ 120 :=
  ⟨by decide, rfl, takes_demo _, ⟨rfl, .inr rfl⟩, by decide, by decide, by decide, by simp [misfit], by simp [misfit],
    by decide, by decide, by decide⟩

def loaded : State := { State.reset with hall := some hall }

theorem test_hyps_RunStarts : demo.takes (requestFrame 200 0x20 []) ∧ State.reset.hall = none ∧ demo.op = .run ∧ loaded.hall ≠ none
    ∧ loaded.op = .load ∧ loaded.quay.inBreak = false
    ∧ { loaded with quay := { Port.reset with inBreak := true } }.quay.inBreak = true :=
  ⟨takes_demo _, by and_intros <;> decide⟩

theorem test_hyps_RestartEndsAllWork : demo.takes (requestFrame 200 0x21 []) ∧ (demo.ring .r2).offer = none
    ∧ (demo.ring .r1).offer = some offer ∧ (afterSale.ring .r1).state = .afterSale ∧ (demo.station 3).isSome
    ∧ Table.Sorted demo.stations ∧ demo.poller.state = .polling ∧ listening.poller.state = .listen ∧ State.reset.poller.state = .off
    ∧ demo.quay.onLine = none ∧ (sending none .due).quay.onLine = some (reply 1 []) ∧ demo.lot 1 = some lot1 ∧ ClaimLaw ticking :=
  ⟨takes_demo _, by and_intros <;> first | decide | exact test_hyps_ClaimLawKept.1⟩

/-- Every parameter of Table 10-4 at its low bound, with the net step given. -/
def lowHall (step : Byte) : List Byte :=
  be 2 1 ++ be 2 0 ++ be 2 0 ++ be 2 0 ++ be 2 0 ++ [step, 5] ++ be 2 50 ++ [0, 5, 1] ++ be 2 50 ++ be 2 10 ++ be 2 200
    ++ be 2 10 ++ be 2 60 ++ [0, 0, 1] ++ be 2 100 ++ [0]
/-- Every parameter of Table 10-4 at its high bound. -/
def highHall : List Byte :=
  be 2 1 ++ be 2 2000 ++ be 2 2000 ++ be 2 1000 ++ be 2 1000 ++ [10, 120] ++ be 2 1000 ++ [3, 100, 15] ++ be 2 2000
    ++ be 2 1000 ++ be 2 5000 ++ be 2 600 ++ be 2 3600 ++ [7, 99, 100] ++ be 2 2000 ++ [7]

theorem test_hyps_LoadOfHallIsWhole : (lowHall 1).length = 33 ∧ highHall.length = 33 ∧ State.reset.takes (loadFrame 200 1 highHall)
    ∧ fieldAt highHall 0 2 = 1 ∧ (readHallEntry (highHall.drop 2)).inRange = true ∧ (readHallEntry ((lowHall 1).drop 2)).inRange = true
    ∧ (readHallEntry ((lowHall 3).drop 2)).inRange = false ∧ (readHallEntry ((hallBytes 20 20).drop 2)).inRange = false
    ∧ fieldAt (be 2 2 ++ highHall.drop 2) 0 2 ≠ 1 :=
  ⟨by decide, by decide, takes_reset _, by and_intros <;> decide⟩

def speciesBody (i code ring profile m n free : Nat) : List Byte :=
  be 2 i ++ be 2 code ++ be 1 ring ++ be 1 profile ++ be 1 m ++ be 2 n ++ be 1 free
def profileBody (i start floor interval free : Nat) : List Byte :=
  be 2 i ++ be 3 start ++ be 3 floor ++ be 2 5 ++ be 2 interval ++ be 2 3000 ++ be 2 1500 ++ be 1 2 ++ be 2 2000 ++ be 1 free
def keypadBody (i enabled account rings free : Nat) : List Byte :=
  be 2 i ++ be 1 enabled ++ be 2 account ++ be 1 rings ++ be 1 free

theorem test_hyps_LoadOfSmallTables_species : (speciesBody 1 9999 4 16 250 1000 0).length = 10
    ∧ demo.takes (loadFrame 200 3 (speciesBody 1 9999 4 16 250 1000 0)) ∧ fieldAt (speciesBody 0 1 1 1 0 1 0) 0 2 = 0
    ∧ 64 < fieldAt (speciesBody 65 1 1 1 0 1 0) 0 2 ∧ fieldAt (speciesBody 64 1 1 1 0 1 1) 9 1 = 1
    ∧ RingNo.ofNum (fieldAt (speciesBody 1 9999 4 16 250 1000 0) 4 1) = some .r4
    ∧ (∀ x ∈ demo.species, x.1 ≠ 64 → x.2.code ≠ 9999) ∧ ¬ (∀ x ∈ demo.species, x.1 ≠ 2 → x.2.code ≠ 1104) :=
  ⟨by decide, takes_demo _, by and_intros <;> decide⟩
theorem test_hyps_LoadOfSmallTables_profiles : (profileBody 16 99999 99999 50 0).length = 20
    ∧ demo.takes (loadFrame 200 4 (profileBody 16 99999 99999 50 0)) ∧ (readProfileEntry ((profileBody 16 99999 99999 50 0).drop 2)).inRange = true
    ∧ (readProfileEntry ((profileBody 1 1 1 5000 0).drop 2)).inRange = true
    ∧ (readProfileEntry ((profileBody 1 522 523 50 0).drop 2)).start < (readProfileEntry ((profileBody 1 522 523 50 0).drop 2)).floor
    ∧ (readProfileEntry ((profileBody 1 522 300 49 0).drop 2)).interval < 50 ∧ fieldAt (profileBody 1 0 0 0 1) 19 1 = 1
    ∧ 16 < fieldAt (profileBody 17 1 1 50 0) 0 2 ∧ (demo.ring .r2).state = .waiting :=
  ⟨by decide, takes_demo _, by and_intros <;> decide⟩
theorem test_hyps_LoadOfSmallTables_keypads : (keypadBody 64 1 9999 15 0).length = 7 ∧ demo.takes (loadFrame 200 6 (keypadBody 64 1 9999 15 0))
    ∧ fieldAt (keypadBody 64 1 9999 15 0) 3 2 ≤ 9999 ∧ 9999 < fieldAt (keypadBody 64 1 10000 15 0) 3 2
    ∧ 15 < fieldAt (keypadBody 64 1 0 16 0) 5 1 ∧ 1 < fieldAt (keypadBody 1 2 0 0 0) 2 1 ∧ fieldAt (keypadBody 1 0 0 0 1) 6 1 = 1
    ∧ 64 < fieldAt (keypadBody 65 0 0 0 0) 0 2 :=
  ⟨by decide, takes_demo _, by and_intros <;> decide⟩
theorem test_hyps_LoadOfSmallTables_text : 3 ≤ (be 2 8 ++ [0]).length ∧ (be 2 8 ++ [0]).length = 3 + fieldAt (be 2 8 ++ [0]) 2 1
    ∧ demo.takes (loadFrame 200 8 (be 2 8 ++ [0])) ∧ (List.replicate 32 (0x7E : Byte)).length ≤ 32
    ∧ (∀ b ∈ [(0x20 : Byte), 0x7E], 0x20 ≤ b.toNat ∧ b.toNat ≤ 0x7E) ∧ Table.Sorted demo.boards.text
    ∧ [(0x7F : Byte)].any (fun b => b.toNat < 0x20 || 0x7E < b.toNat) = true ∧ 32 < (List.replicate 33 (0x20 : Byte)).length
    ∧ 8 < fieldAt (be 2 9 ++ [0]) 0 2 :=
  ⟨by decide, by decide, takes_demo _, by and_intros <;> decide⟩

def accountBody (i n kind limit overdraft : Nat) : List Byte :=
  be 2 i ++ be 2 n ++ be 1 kind ++ be 4 limit ++ be 2 overdraft ++ be 4 0 ++ [0]
def crateBody (i tare deposit pool free : Nat) : List Byte := be 2 i ++ be 2 tare ++ be 2 deposit ++ be 2 pool ++ be 1 free

theorem test_hyps_LoadCreatesEntries_accounts : (accountBody 511 9999 1 100000000 500).length = 16
    ∧ demo.takes (loadFrame 200 7 (accountBody 511 9999 1 100000000 500)) ∧ demo.bank.accounts.find 511 = none
    ∧ demo.account 9999 = none ∧ demo.account 201 ≠ none ∧ fieldAt (accountBody 511 9999 1 100000000 500) 2 2 = 9999
    ∧ fieldAt (accountBody 511 9999 1 100000000 500) 5 4 = 100000000 ∧ fieldAt (accountBody 511 9999 1 100000000 500) 9 2 = 500 :=
  ⟨by decide, takes_demo _, by and_intros <;> decide⟩
theorem test_hyps_LoadCreatesEntries_crates : (crateBody 8 1000 5000 30000 0).length = 9
    ∧ demo.takes (loadFrame 200 5 (crateBody 8 1000 5000 30000 0)) ∧ demo.crateTypes.find 8 = none ∧ (demo.crateTypes.find 1).isSome
    ∧ 30000 < fieldAt (crateBody 8 1000 5000 30001 0) 6 2 ∧ fieldAt (crateBody 1 0 0 0 1) 8 1 = 1 ∧ demo.typeFree 1 = false
    ∧ { loaded with crateTypes := demo.crateTypes }.typeFree 1 = true :=
  ⟨by decide, takes_demo _, by and_intros <;> decide⟩
theorem test_hyps_LoadCreatesEntries_stations : (be 2 30 ++ chuteEntry).length = 14 ∧ demo.takes (loadFrame 200 2 (be 2 30 ++ chuteEntry))
    ∧ demo.station 30 = none ∧ readDevice chuteEntry = some (.chute { cls := 2, runLevel := 3 } { tag := 0, job := none })
    ∧ demo.kindFull 30 (.chute { cls := 2, runLevel := 3 } { tag := 0, job := none }) = false :=
  ⟨by decide, takes_demo _, by and_intros <;> decide⟩
def refusing : Writer := fun s i _ => if i = 5 then .error .range else .ok s
theorem test_hyps_LoadCreatesEntries_prefix : (loadEntries refusing [[1], [2]] 3 demo).1 = .ok ∧ (loadEntries refusing [[1], [2]] 3 demo).2.1 = 5
    ∧ refusing demo 5 [3] = .error .range := ⟨by decide, by decide, rfl⟩

theorem test_hyps_ReadsChangeNothing : (readRow (.readHolds 200 [0, 16, 8])).map (fun x => (x.1, x.2.1)) = some (1, 16)
    ∧ officeFrame (.readHolds 200 [0, 16, 8]) = some (readFrame 200 10 [0, 16, 8]) ∧ demo.takes (readFrame 200 10 [0, 16, 8])
    ∧ fieldAt [0, 16, 0] 2 1 = 0 ∧ 8 < fieldAt [0, 16, 9] 2 1 ∧ fieldAt [0, 17, 8] 0 2 = 17 ∧ demo.takes (readFrame 200 9 [0, 1, 8])
    ∧ demo.lot 1 ≠ none ∧ demo.lot 65535 = none :=
  ⟨by rfl, rfl, takes_demo _, by decide, by decide, by decide, takes_demo _, by decide, by decide⟩

/-! ### The commands -/

theorem test_hyps_AccountAndHoldCommands : demo.takes (requestFrame 200 0x24 [0, 201]) ∧ demo.takes (requestFrame 200 0x25 [0, 201])
    ∧ demo.takes (requestFrame 200 0x28 (be 2 201 ++ be 4 1)) ∧ demo.takes (requestFrame 200 0x29 [2])
    ∧ demo.account 201 = some buyer ∧ demo.account 999 = none ∧ 0 ≤ buyer.available ∧ ({ buyer with balance := -99591 } : Account).available < 0
    ∧ fieldAt (be 2 201 ++ be 4 1000000000) 2 4 = 1000000000 ∧ 1000000000 < fieldAt (be 2 201 ++ be 4 1000000001) 2 4
    ∧ buyer.available = 159590 ∧ demo.bank.holds.length < 16 ∧ demo.holdOf 2 = some { id := 2, account := 201, amount := 50, owner := .office, at_ := noon }
    ∧ (demo.holdOf 1).map (fun h => h.owner) = some (.chute 5) ∧ (∀ h ∈ demo.bank.holds, h.id ≠ 255) :=
  ⟨takes_demo _, takes_demo _, takes_demo _, takes_demo _, by and_intros <;> decide⟩

theorem test_hyps_TransferAndSettle : demo.takes (requestFrame 200 0x26 (be 2 0 ++ be 2 201 ++ be 4 1000000000))
    ∧ demo.takes (requestFrame 200 0x27 [0, 101]) ∧ demo.account 0 ≠ none ∧ demo.account 201 = some buyer ∧ demo.account 999 = none
    ∧ fieldAt (be 2 0 ++ be 2 201 ++ be 4 1000000000) 4 4 = 1000000000 ∧ fieldAt (be 2 0 ++ be 2 201 ++ be 4 0) 4 4 = 0
    ∧ (crowded 0 0 0 127).queue.records.length + (crowded 0 0 0 127).queue.owed + 1 ≤ 128
    ∧ 128 < (crowded 0 0 0 128).queue.records.length + (crowded 0 0 0 128).queue.owed + 1 ∧ buyer.state = .opened :=
  ⟨takes_demo _, takes_demo _, by and_intros <;> decide⟩

theorem test_hyps_RingCommands : (∀ k, demo.takes (requestFrame 200 k [1])) ∧ loaded.op = .load ∧ demo.op = .run
    ∧ fieldAt [1] 0 1 = RingNo.num .r1 ∧ fieldAt [4] 0 1 = RingNo.num .r4 ∧ fieldAt [0] 0 1 = 0 ∧ 4 < fieldAt [5] 0 1
    ∧ (demo.ring .r1).state = .descending ∧ (demo.ring .r2).state = .waiting ∧ (demo.ring .r3).state = .idle
    ∧ (resolving.ring .r1).state = .resolving ∧ (afterSale.ring .r1).state = .afterSale ∧ ((leading 2 0).ring .r1).state = .leadIn
    ∧ ((held true false).ring .r1).state = .held ∧ ((held true false).ring .r1).heldOffice = true ∧ ((held true false).ring .r1).heldFloor = false
    ∧ ((held true true).ring .r1).heldFloor = true ∧ ((held true false).ring .r1).offer = some offer ∧ demo.floorLine.cond = .up
    ∧ (broken .polling 0 true false).floorLine.cond ≠ .up ∧ ((demo.setRing .r3 (Ring.reset.hold true false)).ring .r3).offer = none
    ∧ (demo.ring .r1).holdPending = false
    ∧ ((resolving.modRing .r1 (fun x => { x with holdPending := true })).ring .r1).holdPending = true ∧ 0 < offer.profile.resumePause :=
  ⟨fun _ => takes_demo _, by and_intros <;> decide⟩

theorem test_hyps_LotCommands : demo.takes (requestFrame 200 0x2F [0, 2]) ∧ demo.takes (requestFrame 200 0x2E [0, 2])
    ∧ demo.takes (requestFrame 200 0x30 (be 2 2 ++ be 3 99999)) ∧ demo.lot 2 = some lot2 ∧ lot2.state = .queued ∧ demo.lot 1 = some lot1
    ∧ lot1.state = .onClock ∧ demo.lot 9 = none ∧ 2 ∈ (demo.ring lot2.ring).queue ∧ demo.op = .run ∧ loaded.op = .load
    ∧ fieldAt (be 2 2 ++ be 3 99999) 2 3 ≤ 99999 ∧ 99999 < fieldAt (be 2 2 ++ be 3 100000) 2 3 ∧ Table.Sorted demo.lotStore.lots
    ∧ demo.account lot2.boat = some boat ∧ lot2.boat ≠ 0 ∧ Table.Sorted boat.crates :=
  ⟨takes_demo _, takes_demo _, takes_demo _, by and_intros <;> decide⟩
theorem test_hyps_LotCommands_bounds : inBounds (boat.crateBalance lot2.ctype + lot2.remaining)
    ∧ inBounds (boat.balance - (demo.depositOf lot2.ctype * lot2.remaining : Nat))
    ∧ inBounds ((-60000 : Int) + (demo.depositOf lot2.ctype * lot2.remaining : Nat)) := by unfold inBounds; decide

/-- The pool figures at the limits of R137 and R138: 2,013 less 13; a store taken below 0; a pool above 1,000,000. -/
theorem test_hyps_IceAndPoolCommands : demo.takes (requestFrame 200 0x31 [7]) ∧ demo.takes (requestFrame 200 0x32 [2])
    ∧ demo.takes (requestFrame 200 0x33 ([1] ++ beInt 4 (-2885))) ∧ demo.takes (requestFrame 200 0x34 ([1] ++ be 4 18))
    ∧ fieldAt [7] 0 1 ≤ 7 ∧ 7 < fieldAt [8] 0 1 ∧ demo.ice.screw = .running 5 ∧ demo.jobAt 5 = some dispense ∧ dispense.state = .running
    ∧ demo.ice.latch.any (fun b => (demo.jobAt b).any (fun e => decide (max dispense.runLevel 4 < e.cls))) = true
    ∧ demo.ice.latch.any (fun b => (demo.jobAt b).any (fun e => decide (max dispense.runLevel 5 < e.cls))) = false
    ∧ screwFree.ice.screw.served = none ∧ demo.chuteAddr 2 = some 6 ∧ demo.chuteAddr 3 = none ∧ demo.jobAt 6 = some request
    ∧ request.state = .requested ∧ request.started = false ∧ (withContext demo 5 (chute none)).jobAt 5 = none
    ∧ signedAt ([1] ++ beInt 4 (-2885)) 1 4 = -2885 ∧ signedAt ([1] ++ beInt 4 (-2886)) 1 4 = -2886
    ∧ signedAt ([1] ++ beInt 4 30000) 1 4 = 30000 ∧ (demo.crateTypes.find 1).map (fun c => (c.store, c.pool)) = some (2885, 3000)
    ∧ demo.crateTypes.find 8 = none ∧ demo.holdings 1 = 115 ∧ demo.openSessions 1 ≠ 0 ∧ (withContext demo 9 (gate none)).openSessions 1 = 0
    ∧ (1000000 : Int) < (999886 : Int) + demo.holdings 1 ∧ (999885 : Int) + demo.holdings 1 ≤ 1000000 :=
  ⟨takes_demo _, takes_demo _, takes_demo _, takes_demo _, by and_intros <;> decide⟩

theorem test_hyps_CollectResumeClearShow : demo.takes (requestFrame 200 0x35 [4]) ∧ listening.takes (requestFrame 200 0x36 [])
    ∧ demo.takes (requestFrame 200 0x37 [3]) ∧ demo.takes (requestFrame 200 0x38 [0x80]) ∧ fieldAt [4] 0 1 ≤ 4 ∧ 4 < fieldAt [5] 0 1
    ∧ recorded.queue.records.length = 1 ∧ listening.poller.state = .listen ∧ demo.poller.state ≠ .listen ∧ listening.nextEnabled 0 = some 3
    ∧ 3 < fieldAt [4] 0 1 ∧ demo.floorLine.cond = .up ∧ demo.floor.stage = none ∧ demo.floor.onLine = none ∧ demo.boards.answers = []
    ∧ demo.boardDue .r1 = false ∧ (answering 0).floorLine.cond ≠ .up ∧ [1, 2, 3, 4, 5, 6, 7, 8].filter (fun n => (0x80 : Nat).testBit (n - 1)) = [8] :=
  ⟨takes_demo _, takes_listening _, takes_demo _, takes_demo _, by and_intros <;> decide⟩

theorem test_hyps_NoticeTimeAndOtherFrames : demo.takes (requestFrame 200 0x39 [16, 7]) ∧ demo.takes (requestFrame 200 0x3A [0x80, 0])
    ∧ demo.takes (requestFrame 200 0x3B (be 4 86399999 ++ be 2 65535)) ∧ fieldAt [16, 7] 0 1 ≤ 16 ∧ 16 < fieldAt [17, 7] 0 1
    ∧ fieldAt [16, 7] 1 1 ≤ 7 ∧ 7 < fieldAt [16, 8] 1 1 ∧ (List.range 17).filter (fun n => decide (1 ≤ n) && (0x8000 : Nat).testBit (n - 1)) = [16]
    ∧ 8 < ((List.range 17).filter (fun n => decide (1 ≤ n) && (0x1FF : Nat).testBit (n - 1))).length ∧ Table.Sorted demo.latches
    ∧ fieldAt (be 4 86399999 ++ be 2 65535) 0 4 ≤ 86399999 ∧ 86399999 < fieldAt (be 4 86400000 ++ be 2 0) 0 4
    ∧ (demo.station 5).map (fun st => (st.enabled, st.commands.length)) = some (true, 0) ∧ demo.station 30 = none ∧ demo.poller.state = .polling
    ∧ listening.poller.state ≠ .polling ∧ (List.replicate 118 (0 : Byte)).length ≤ 118 ∧ 118 < (List.replicate 119 (0 : Byte)).length
    ∧ (0x1F : Byte).toNat < 0x20 ∧ 0x3B < (0x3C : Byte).toNat ∧ 30 < (31 : Byte).toNat ∧ 8 < (9 : Byte).toNat ∧ 10 < (11 : Byte).toNat :=
  ⟨takes_demo _, takes_demo _, takes_demo _, by and_intros <;> decide⟩

/-! ### The clauses of the wider statements, at the bounds of their ranges -/

theorem test_hyps_TickRule_devices : (demo.weighAt 3).map (fun x => x.2.state) = some .idle ∧ demo.station 30 = none
    ∧ (demo.station 11).map (fun st => st.device) = some .icePlant ∧ demo.jobAt 5 = some dispense := by decide

/-- A length byte of 120 and of 121, four bytes and three, five and six, two frames in the receive stage and one. -/
theorem test_hyps_FrameEndJudged_judge : (unescape [0, 0, 2, 0, 9, 9]).1.length = 6 ∧ (unescape [0, 0, 2, 1, 9]).1.length < 6
    ∧ fieldAt (unescape [0, 0, 2, 0]).1 3 1 = 0 ∧ fieldAt (unescape [0, 0, 2, 121]).1 3 1 ≠ 0 ∧ (unescape [0, 0, 2]).1.length < 4
    ∧ ({ Port.reset with rx := [reply 1 [], reply 2 []] } : Port).rx.length = 2
    ∧ [0x00, 0xD5, 0xFF].all (fun x : Byte => !(isReserved x)) = true ∧ (0xD6 : Byte) ≠ 0xD5 ∧ (0xD6 : Byte) ≠ 0xDA
    ∧ (0xD6 : Byte) ≠ 0xD7 := by decide

/-- The demo state with a silent floor line. -/
def silenced : State := { demo with floorLine := { cond := .silent, silence := none } }

theorem test_hyps_FrameEndJudged_lines : silenced.floorLine.cond = .silent
    ∧ (judge silenced.floor (stopWire [1, 1, 5]) false).any = false ∧ (frameOf (unescape (stopWire [1])).1).kind ≠ 0x10
    ∧ (judge State.reset.floor (frameWire { reply 1 [] with kind := 0x10 }) false).any = false
    ∧ (frameOf (unescape (frameWire { reply 1 [] with kind := 0x10 })).1).kind = 0x10
    ∧ State.reset.hall = none ∧ (demo.station 3).map (fun st => st.enabled) = some true := by decide

/-- An office frame that ends with the stages empty and behind a waiting response; STOP frames of a wrong length. -/
theorem test_hyps_FrameEndJudged_taken : (judge demo.office (frameWire (requestFrame 200 0x20 [])) false).any = false
    ∧ demo.office.stage = none ∧ demo.office.rx = [] ∧ (Instr.run 200 []).wellFormed = true
    ∧ officeFrame (.run 200 []) = some (frameOf (unescape (frameWire (requestFrame 200 0x20 []))).1)
    ∧ (sending (some (reply 2 [])) .due).office.stage ≠ none
    ∧ misfitStops [{ stop17 with dst := 5, payload := [1] }] = 1 ∧ misfitStops [{ stop17 with dst := 5 }] = 0
    ∧ misfitStops [stop17, { stop17 with dst := 5, payload := [1] }] = 0
    ∧ (frameOf (unescape (frameWire { stop17 with dst := 5, payload := [1] })).1).kind ≠ 0x10
    ∧ (judge demo.floor (frameWire { stop17 with dst := 5, payload := [1] }) false).any = false :=
  ⟨by decide, rfl, rfl, by decide, by decide, by and_intros <;> decide⟩

/-- The floor line and ring 1 HELD by it, with no resume pause, and claims held and owed as given. -/
def unpaused (claims owed : Nat) : State :=
  { (broken .polling 0 false true).modRing .r1 (fun x => { x with
      claims := claims, offer := some { offer with profile := { profile with resumePause := 0 } } }) with
    queue := { demo.queue with owed := owed } }

/-- The claims of ring 1 after the recovery, rings first and composer first. -/
def claimsUp (s : State) : List Nat :=
  [s.ringsUp.syncSlots.slotsReady.floorDecide, s.slotsReady.floorDecide.ringsUp.settleFloor].map (fun t => (t.ring .r1).claims)

theorem test_hyps_BreakEndLeaves_unpaused :
    ((unpaused 2 6).ring .r1).offer.map (fun o => o.profile.resumePause) = some 0
    ∧ claimsUp (unpaused 2 6) = [2, 2] ∧ claimsUp (unpaused 1 127) = [2, 2] ∧ claimsUp (unpaused 1 128) = [1, 1]
    ∧ { unpaused 2 6 with floor := (sending (some (reply 1 [])) .due).floor }.floor.stage ≠ none := by decide

/-- Frames on the lines, the board slot of ring 2 ready, and two text lines pending where nothing else is. -/
def boarding (stage : Option Frame) (x : Readiness) : State :=
  { sending stage .onLine with
    boards := { demo.boards with showing := [3, 8] } }.setSlot .r2
      { content := some (demo.boardContent .r2), readiness := x, pace := none }

theorem test_hyps_FrameSentMovesOn_boards : (boarding none .ready).boards.answers = [] ∧ (boarding none .ready).op = .run
    ∧ ((boarding none .ready).slot .r2).readiness = .ready ∧ ((boarding none .ready).slot .r2).content = some (demo.boardContent .r2)
    ∧ (∀ q : RingNo, q.num < RingNo.num .r2 → (boarding none .ready).boardDue q = false)
    ∧ (boarding (some (reply 2 [])) .ready).floor.stage ≠ none ∧ (boarding none .none).boards.showing.head? = some 3
    ∧ (∀ q : RingNo, (boarding none .none).boardDue q = false) ∧ (boarding none .none).floorLine.cond = .up := by
  and_intros <;> first | decide | (intro q; cases q <;> decide)

/-- A request that waits behind a response as the frame on the office line ends. -/
theorem test_hyps_FrameSentMovesOn_request :
    { sending (some (reply 2 [])) .due with office := { (sending (some (reply 2 [])) .due).office with
        rx := [requestFrame 200 0x20 []] } }.office.onLine ≠ none
    ∧ [requestFrame 200 0x20 []].head? = some (requestFrame 200 0x20 []) ∧ (Instr.run 200 []).wellFormed = true
    ∧ officeFrame (.run 200 []) = some (requestFrame 200 0x20 []) ∧ (sending none .due).office.rx = [] :=
  ⟨by decide, rfl, rfl, rfl, rfl⟩

/-- A poll due after the last address, after an address below others, and where no station is enabled any more. -/
theorem test_hyps_FrameSentMovesOn_due : (sending none .due).nextEnabled 4 = some 5
    ∧ { sending none .due with poller := { demo.poller with poll := some { station := 11, phase := .due } } }.nextEnabled 11 = none
    ∧ demo.poller.startDue = false ∧ { demo.poller with startDue := true }.startDue = true
    ∧ { sending none .due with stations := [] }.nextEnabled 4 = none ∧ { sending none .due with stations := [] }.nextEnabled 0 = none
    ∧ (sending none .due).quay.stage = none ∧ (sending none .due).nextEnabled 0 = some 3 := by decide

theorem test_hyps_ReplyTimeoutMisses_lines : (waited 5 0 .online).nextEnabled 3 = some 4 ∧ (waited 5 0 .online).quay.stage = none
    ∧ (waited 5 0 .online).quay.onLine = none ∧ { waited 5 0 .online with quay := (sending none .due).quay }.quay.onLine ≠ none
    ∧ { waited 5 0 .online with quay := (sending (some (reply 1 [])) .due).quay }.quay.stage ≠ none
    ∧ (demo.station 11).map (fun st => st.enabled) = some true ∧ demo.nextEnabled 11 = none ∧ demo.nextEnabled 0 = some 3 := by
  decide

/-- A WEIGH reply with a draft item, a CHUTE reply with a request, a GATE reply with an OPEN item, an ICEPLANT reply. -/
theorem test_hyps_QuayReplyHeard_hands : (demo.weighAt 3).isSome ∧ (demo.chuteAt 5).isSome ∧ (demo.gateAt 9).isSome
    ∧ (demo.station 11).map (fun st => st.device) = some .icePlant
    ∧ (readWeigh [0, 0x7A, 0x0F, 0, 1, 0, 101, 0x04, 0x50, 1, 12]).isSome ∧ (readChute [9, 1, 0, 5, 0, 1, 0, 201, 0, 10]).isSome
    ∧ (readChute [9, 3, 0, 5, 1, 0]).map (fun y => (y.status, y.stopButton, y.request)) = some (none, true, none)
    ∧ (readGate [6, 1, 0, 4, 0, 1, 0, 201, 1, 2]).isSome ∧ (readPlant [60, 0]).isSome := by decide

/-- The listening state with a station at its hearing interval. -/
def unheard (a : Nat) : State := listening.modStation a (fun st => { st with age := 750 })

theorem test_hyps_SilenceLosesStations_work :
    [3, 4, 5, 9, 11].all (fun a => ((unheard a).station a).any (fun st => st.enabled && st.live == .online && st.age == 750)) = true
    ∧ (unheard 4).weighAt 4 = some (weighCfg, drafting) ∧ (unheard 3).weighAt 3 = some (weighCfg, idleChannel)
    ∧ ((unheard 5).chuteAt 5).map (fun x => x.2.job) = some (some dispense)
    ∧ ((withContext (unheard 5) 5 (chute none)).chuteAt 5).map (fun x => x.2.job) = some none
    ∧ ((unheard 9).gateAt 9).map (fun x => x.2.session) = some (some session)
    ∧ ((withContext (unheard 9) 9 (gate none)).gateAt 9).map (fun x => x.2.session) = some none
    ∧ ((unheard 11).station 11).map (fun st => st.device) = some .icePlant ∧ (unheard 11).ice.screw = .running 5
    ∧ dispense.state = .running ∧ (unheard 5).account dispense.account = some buyer ∧ dispense.started = true
    ∧ { unheard 5 with ice := { demo.ice with screw := .idle } }.ice.screw.served = none := by decide

/-- A dispense at station 5 in a state, with the outcome it is to end with. -/
def ending (x : ChuteState) (o : Option PendingOutcome) : State :=
  withContext demo 5 (chute (some { dispense with state := x, pendingOutcome := o }))

/-- A run of 16 kg leaves 1 of 20 to go, one of 17 none; figures of 4 and 5 kg after 5; tags 9 and 8. -/
theorem test_hyps_RunEndChargesTheDispense_states :
    ((withContext demo 5 (chute none)).chuteAt 5).map (fun x => x.2.job) = some none
    ∧ (demo.jobAt 6).map (fun d => d.state) = some .requested ∧ ((ending .suspended none).jobAt 5).map (fun d => d.state) = some .suspended
    ∧ (demo.chuteAt 5).map (fun x => x.2.tag) = some 9 ∧ dispense.current ≤ 5 ∧ 4 < dispense.current
    ∧ demo.waits 5 QuayCommand.isStart = false
    ∧ (demo.placeCommand 5 (.start 9 17)).waits 5 QuayCommand.isStart = true
    ∧ ((ending .ending (some .end_)).jobAt 5).map (fun d => d.pendingOutcome) = some (some .end_)
    ∧ ((ending .ending (some (.suspend .dry))).jobAt 5).map (fun d => (d.state, d.pendingOutcome)) = some (.ending, some (.suspend .dry))
    ∧ dispense.delivered + 16 < dispense.granted ∧ dispense.granted ≤ dispense.delivered + 17 ∧ 5 ∉ demo.ice.latch
    ∧ demo.ice.screw.served = some 5 ∧ screwFree.ice.screw.served = none
    ∧ ((ending .ending none).jobAt 5).map (fun d => d.granted) = some 20 := by decide

/-- Request times before and behind the one that waits. -/
theorem test_hyps_IceRequestJudged_latch : (5 : Nat) ∉ demo.ice.latch ∧ demo.ice.latch = [6] ∧ demo.jobAt 6 = some request
    ∧ ({ dispense with requested := { noon with tod := 0 } } : Dispense).ahead request = true
    ∧ ({ dispense with latchOrder := 2 } : Dispense).ahead request = false := by decide

/-- A station's session that counts 4 crates, told 3, 4 and 10,000; barrier, sensor and tags as R129 and R134 have them. -/
theorem test_hyps_GateSessionOpensAndCounts_closes : min 9999 3 < session.count ∧ 3 ≤ 9999 ∧ ¬ min 9999 4 < session.count
    ∧ (demo.gateAt 9).map (fun x => (x.2.session, x.2.tag)) = some (some session, 6) ∧ (7 : Nat) ≠ 6
    ∧ demo.waits 9 QuayCommand.isOpened = false ∧ demo.waits 9 QuayCommand.isClosed = false
    ∧ (demo.placeCommand 9 (.answerOpened 6)).waits 9 QuayCommand.isOpened = true
    ∧ ((after (.gateIdleTimeout 9) idledOut).gateAt 9).map (fun x => (x.2.session, x.2.lastClose, x.2.tag))
        = some (none, some { count := 4, cause := .idle }, 6)
    ∧ idledOut.account session.account = some buyer ∧ demo.depositOf 1 = 250 := by decide

/-- Ring 1 in a resolution that stands between its slots: slot 1 has bought crates or none. -/
def midway (sold : Bool) : State :=
  resolving.modRing .r1 (fun x => { x with
    claims := if sold then 1 else 2
    offer := some { offer with slot2 := some { keypad := 2, wanted := 0, at_ := noon }, midway := some sold } })

/-- Both slots taken, with all crates left, and with the 5 of slot 1 alone. -/
def contended (s : State) : State :=
  s.modRing .r1 (fun x => { x with offer := x.offer.map (fun o => { o with slot2 := some { keypad := 2, wanted := 0, at_ := noon } }) })

theorem test_hyps_FloorStopTaken_midway : ((midway true).ring .r1).midway = true ∧ ((midway false).ring .r1).midway = true
    ∧ RingNo.ofNum (fieldAt stop17.payload 1 1) = some .r1 ∧ stop17.payload.length = 3
    ∧ (RingNo.ofNum (fieldAt stop17.payload 1 1)).any (fun r => (demo.ring r).midway) = false
    ∧ silenced.floorLine.cond = .silent ∧ { silenced with floor := { Port.reset with rx := [stop17] } }.floor.rx.head? = some stop17 := by
  decide

theorem test_hyps_ResolutionEnds_slots : timerDue ((midway true).ring .r1).timer = true
    ∧ ((midway true).ring .r1).state = .resolving ∧ ((midway true).ring .r1).offer.map (fun o => o.midway) = some (some true)
    ∧ ((contended resolving).ring .r1).offer.map (fun o => (o.slot2.isSome, o.midway)) = some (true, none)
    ∧ (resolving.ring .r1).offer.map (fun o => o.slot2) = some none
    ∧ (after (.resolveExpiry .r1) (contended lastCrates)).cratesLeft 1 = 0
    ∧ ((after (.resolveExpiry .r1) (midway true)).ring .r1).midway = false
    ∧ ((contended lastCrates).lot 1).map (fun l => l.remaining) = some 5 := by decide

/-- A slot whose board shows ring 1 as it is, at another price, or of another lot; after a sale; between two slots. -/
theorem test_hyps_AfterSaleAndPaceEnd_slots :
    ((demo.setSlot .r1 { content := some (demo.boardContent .r1), readiness := .none, pace := none }).slot .r1).content
        = some (demo.boardContent .r1)
    ∧ { demo.boardContent .r1 with price := some 5 } ≠ demo.boardContent .r1
    ∧ { demo.boardContent .r1 with crates := some 1 } ≠ demo.boardContent .r1
    ∧ (demo.ring .r1).midway = false ∧ ((midway true).ring .r1).midway = true ∧ (afterSale.ring .r1).state = .afterSale
    ∧ (afterSale.ring .r1).offer = some offer ∧ (demo.ring .r2).offer = none ∧ demo.lot offer.lot = some lot1
    ∧ BoardSlot.reset.readiness = .none ∧ BoardSlot.reset.pace = none
    ∧ ({ BoardSlot.reset with readiness := .paced, pace := some { elapsed := 0, limit := 300 } } : BoardSlot).readiness ≠ .none := by
  decide

theorem test_hyps_RestartEndsAllWork_keeps : HoldLaw ticking ∧ ticking.takes (requestFrame 200 0x21 [])
    ∧ (∀ r, (demo.ring r).midway = false) ∧ ((midway true).ring .r1).midway = true ∧ Table.Sorted demo.latches
    ∧ ((demo.latch .stationLost (.station 12)).latchAt 6).pending = true ∧ (6 : Nat) ∉ [2, 8, 9, 12, 16]
    ∧ demo.weighAt 4 = some (weighCfg, drafting) ∧ (demo.chuteAt 5).map (fun x => x.2.job) = some (some dispense)
    ∧ (demo.gateAt 9).map (fun x => x.2.session) = some (some session) ∧ (answering 0).floorLine.cond ≠ .up
    ∧ { contended resolving with floor := (sending (some (reply 1 [])) .due).floor }.floor.stage ≠ none
    ∧ demo.boards.answers.length ≤ 8 ∧ (resolving.ring .r1).state = .resolving
    ∧ demo.stations.all (fun z => !(z.2.device.namesAccount 101) || z.2.device.isWeigh) = true :=
  ⟨test_hyps_HoldLawKept.1, takes_demo _, fun r => by cases r <;> rfl, by and_intros <;> decide⟩

theorem test_hyps_LoadOfHallIsWhole_ranges : (2000 < (readHallEntry ((be 2 1 ++ be 2 2001 ++ highHall.drop 4).drop 2)).sellerLevy)
    ∧ (readHallEntry (highHall.drop 2)).lowMark = 99 ∧ (readHallEntry (highHall.drop 2)).resumeMark = 100
    ∧ (readHallEntry ((hallBytes 20 20).drop 2)).resumeMark < (readHallEntry ((hallBytes 20 20).drop 2)).lowMark + 1 := by decide

def accountRow (i n kind limit overdraft free : Nat) : List Byte :=
  be 2 i ++ be 2 n ++ be 1 kind ++ be 4 limit ++ be 2 overdraft ++ be 4 0 ++ be 1 free

/-- Account 101 with nothing on it and no work, and account 201, which a keypad names. -/
def emptyBoat : State :=
  { withContext demo 4 (weigh idleChannel) with lotStore := { lots := [], reserved := 0, next := 3 } }.modAccount 101
    (fun a => { a with crates := [] })

theorem test_hyps_LoadCreatesEntries_account_changes : demo.bank.accounts.find 1 = some boat
    ∧ emptyBoat.bank.accounts.find 1 = some { boat with crates := [] }
    ∧ (Account.noCrates { boat with crates := [] }) = true ∧ boat.balance = 0 ∧ boat.held = 0 ∧ emptyBoat.accountInWork 101 = false
    ∧ demo.accountInWork 101 = true ∧ emptyBoat.keypads.all (fun x => x.2.account != some 101) = true ∧ boat.noCrates = false
    ∧ demo.keypads.any (fun x => x.2.account == some 201) = true ∧ demo.bank.accounts.find 511 = none
    ∧ fieldAt (accountRow 512 101 1 0 0 0) 0 2 = 512 ∧ fieldAt (accountRow 1 101 1 50000 501 0) 9 2 = 501
    ∧ fieldAt (accountRow 1 101 2 50000 0 0) 4 1 = 2 ∧ fieldAt (accountRow 1 101 1 0 0 1) 15 1 = 1
    ∧ fieldAt (accountRow 1 101 4 0 0 2) 15 1 = 2 ∧ fieldAt (accountRow 1 101 1 100000001 0 0) 5 4 = 100000001
    ∧ (demo.bank.accounts.map (fun x => x.2.number)).Nodup ∧ boat.state = .opened
    ∧ ({ boat with limit := some 0, balance := -1 } : Account).available < 0 ∧ 0 ≤ ({ boat with limit := some 0 } : Account).available := by
  decide

theorem test_hyps_LoadCreatesEntries_crate_ranges : fieldAt (crateBody 8 1001 0 0 0) 2 2 = 1001
    ∧ fieldAt (crateBody 8 0 5001 0 0) 4 2 = 5001 ∧ fieldAt (crateBody 9 0 0 0 0) 0 2 = 9 ∧ fieldAt (crateBody 8 0 0 0 2) 8 1 = 2
    ∧ demo.crateTypes.find 8 = none ∧ (demo.crateTypes.find 1).isSome := by decide

def chuteBody (i enabled cls runLevel free : Nat) : List Byte :=
  be 2 i ++ [2] ++ be 1 enabled ++ be 6 0 ++ be 1 cls ++ be 1 runLevel ++ [0] ++ be 1 free

/-- The demo state with six chutes and no work at them. -/
def sixChutes : State :=
  { demo with stations := [1, 2, 3, 4, 5, 6].map (fun a => (a, online (chute none))) ++ [(11, online .icePlant)] }

theorem test_hyps_LoadCreatesEntries_station_changes : (chuteBody 30 1 7 7 0).length = 14
    ∧ demo.takes (loadFrame 200 2 (chuteBody 30 1 7 7 0)) ∧ fieldAt (chuteBody 31 1 1 1 0) 0 2 = 31
    ∧ fieldAt (chuteBody 30 1 8 8 0) 10 1 = 8 ∧ fieldAt (chuteBody 30 1 3 2 0) 11 1 < fieldAt (chuteBody 30 1 3 2 0) 10 1
    ∧ fieldAt (chuteBody 30 2 1 1 0) 3 1 = 2 ∧ fieldAt (chuteBody 30 1 1 1 2) 13 1 = 2 ∧ fieldAt (chuteBody 30 1 0 0 1) 13 1 = 1
    ∧ badStationCode ((chuteBody 30 1 0 0 1).drop 2) = false ∧ demo.station 30 = none
    ∧ (readDevice ((chuteBody 3 0 1 1 0).drop 2)).isSome ∧ (demo.station 3).map (fun st => st.device.busy) = some false
    ∧ (demo.station 5).map (fun st => st.device.busy) = some true ∧ (demo.station 11).map (fun st => (st.device, st.live)) = some (.icePlant, .online)
    ∧ ((waited 5 0 .offline).station 3).map (fun st => st.live) = some .offline
    ∧ sixChutes.kindFull 30 (chute none) = true ∧ sixChutes.kindFull 6 (chute none) = false ∧ sixChutes.station 30 = none
    ∧ Table.Sorted demo.stations :=
  ⟨by decide, takes_demo _, by and_intros <;> decide⟩

theorem test_hyps_RingCommands_midway : ((midway true).ring .r1).midway = true ∧ (midway true).op = .run
    ∧ fieldAt [1] 0 1 = RingNo.num .r1 ∧ (demo.ring .r1).midway = false ∧ 0 < (demo.ring .r1).claims ∧ (demo.ring .r2).claims = 0
    ∧ ((demo.modRing .r2 (fun x => { x with stall := .claims })).ring .r2).stall = .claims ∧ (demo.ring .r2).state = .waiting := by
  decide

theorem test_hyps_CollectResumeClearShow_more : (after (.collect 200 [4]) recorded).queue ≠ recorded.queue
    ∧ (after (.collect 200 [4]) demo).queue = demo.queue ∧ { listening with stations := [] }.nextEnabled 0 = none
    ∧ listening.quay.stage = none ∧ listening.quay.onLine = none
    ∧ { listening with quay := (sending (some (reply 1 [])) .due).quay }.quay.stage ≠ none := by decide

/-- The lists of R159: one command, two with no STOP, a STOP first, and two STOPs. -/
def waiting (l : List QuayCommand) (on : Bool) : State := demo.modStation 5 (fun st => { st with commands := l, enabled := on })

theorem test_hyps_NoticeTimeAndOtherFrames_lists : demo.station 30 = none
    ∧ ((waiting [] false).station 5).map (fun st => st.enabled) = some false
    ∧ ((waiting [.stop 9] true).station 5).map (fun st => (st.enabled, st.commands.length)) = some (true, 1)
    ∧ ((waiting [.stop 8, .stop 9] true).station 5).map (fun st => st.commands) = some [.stop 8, .stop 9]
    ∧ (QuayCommand.stop 9).isStop = true ∧ (QuayCommand.start 9 17).isStop = false := by decide

/-- The break timer has run out with station 3 OFFLINE already. -/
def breakOut : State :=
  ({ demo with poller := { Poller.reset with
      state := .broken .polling, breakTimer := some { elapsed := 750, limit := 750 } } }).modStation 3
    (fun st => { st with live := .offline })

theorem test_breakTimerExpiry_ends_the_work :
    ([4, 5, 9].map (fun a => ((after .breakTimerExpiry breakOut).station a).map (fun st => st.commands)))
      = [some [.result .lost], some [.answerEnded .lost 8], some [.closed 6 4 .lost]] := by decide

theorem test_hyps_SilenceLosesStations_break : breakOut.poller.state.isBroken = true
    ∧ timerDue breakOut.poller.breakTimer = true ∧ Table.Sorted breakOut.stations
    ∧ (breakOut.station 3).map (fun st => st.live) = some .offline ∧ breakOut.jobAt 3 = none
    ∧ [4, 5, 6, 9, 11].all (fun a => (breakOut.station a).any (fun st => st.live == .online && st.enabled)) = true
    ∧ breakOut.weighAt 4 = some (weighCfg, drafting) ∧ breakOut.jobAt 5 = some dispense
    ∧ (withContext breakOut 4 (weigh idleChannel)).weighAt 4 = some (weighCfg, idleChannel)
    ∧ (withContext breakOut 5 (chute none)).jobAt 5 = none
    ∧ ((withContext breakOut 9 (gate none)).gateAt 9).map (fun x => x.2.session) = some none
    ∧ (breakOut.gateAt 9).map (fun x => x.2.session) = some (some session)
    ∧ (breakOut.station 11).map (fun st => st.device) = some .icePlant ∧ breakOut.ice.screw ≠ .dry
    ∧ breakOut.jobAt 3 = none ∧ (breakOut.latchAt 6).count ≤ 255 ∧ demo.poller.state.isBroken = false := by decide

/-- A START lost before the STOP of a suspension followed it: tag 8 at a chute whose tag is 9, with 5 kg held and with
none. -/
theorem test_hyps_RunEndChargesTheDispense_lost_start :
    ((ending .ending (some (.suspend .dry))).chuteAt 5).map (fun x => x.2.tag) = some 9 ∧ (8 : Nat) ≠ 9
    ∧ (ending .ending (some (.suspend .dry))).waits 5 QuayCommand.isStart = false
    ∧ dispense.delivered + dispense.current < dispense.granted ∧ 5 ∉ (ending .ending (some (.suspend .dry))).ice.latch
    ∧ 0 < dispense.current ∧ ({ dispense with current := 0 } : Dispense).delivered + 0 < dispense.granted
    ∧ (((ending .ending (some (.suspend .dry))).runReport 5 8 .none 0).jobAt 5).map (fun d => (d.state, d.delivered))
        = some (.suspended, 8) := by decide

/-- Ring 1 resolves with a resume pause given; of the record queue `owed` entries are claimed. -/
def resumingAt (pause owed : Nat) : State :=
  { resolving.modRing .r1 (fun x => { x with
      offer := x.offer.map (fun o => { o with profile := { profile with resumePause := pause } }) }) with
    queue := { demo.queue with owed := owed } }

/-- Slot 1 has bought 5 crates of 12 and one claim is left; there is room for another, or none. -/
theorem test_hyps_ResolutionEnds_claims :
    [(40, 6), (0, 6), (40, 128), (0, 128)].all (fun x =>
      let u := (resumingAt x.1 x.2).resolveSlot .r1 ((((resumingAt x.1 x.2).ring .r1).offer).getD offer)
        { keypad := 1, wanted := 5, at_ := noon }
      0 < u.cratesLeft 1 && (u.ring .r1).claims == 1
        && (u.queue.records.length + u.queue.owed + (2 - 1) ≤ 128) == (x.2 == 6)) = true
    ∧ ((after (.resolveExpiry .r1) (resumingAt 0 6)).ring .r1).claims = 2
    ∧ ((after (.resolveExpiry .r1) (resumingAt 0 6)).ring .r1).state = .descending
    ∧ ((after (.resolveExpiry .r1) (resumingAt 0 128)).ring .r1).claims = 1
    ∧ ((after (.resolveExpiry .r1) (resumingAt 0 128)).ring .r1).stall = .claims
    ∧ (resumingAt 0 6).floorLine.cond = .up ∧ ((resumingAt 0 6).ring .r1).holdPending = false
    ∧ (((resumingAt 0 6).modRing .r1 (fun x => { x with holdPending := true })).ring .r1).holdPending = true := by decide

/-- RESTART of the hall at work: 96 cents of ice and 1,000 of deposit to buyer 201, 4 crates of type 1. -/
theorem test_hyps_RestartEndsAllWork_money : HoldLaw ticking ∧ CrateLaw ticking ∧ (ticking.account 0).isSome
    ∧ ticking.account 201 = some buyer ∧ buyer.totals.ice ≤ 4000000000
    ∧ ticking.totalOf (ticking.debitAtEnd (fun m => m == 201)) = 1096
    ∧ ticking.totalOf (ticking.creditAtEnd (fun m => m == 201)) = 0
    ∧ (withContext ticking 9 (gate (some { session with dir := .into }))).totalOf
        (ticking.creditAtEnd (fun _ => true)) = 1000
    ∧ ticking.totalOf (Station.cratesAtEnd (fun m => m == 201) .out 1) = 4
    ∧ ticking.totalOf (Station.cratesAtEnd (fun _ => true) .into 1) = 0
    ∧ ticking.totalOf (Station.iceCharged (fun m => m == 201)) = 8
    ∧ ticking.stations.any (fun z => z.2.device.namesAccount 0) = false
    ∧ (ticking.crateTypes.find 1).map (fun c => decide (4 ≤ c.store ∧ c.store + 0 ≤ storeBound)) = some true :=
  ⟨test_hyps_HoldLawKept.1, test_hyps_CrateLawKept.1, by and_intros <;> decide⟩
theorem test_hyps_RestartEndsAllWork_bounds : inBounds (buyer.balance - (1096 : Nat)) ∧ inBounds (buyer.balance + (0 : Nat))
    ∧ inBounds (buyer.crateBalance 1 + (4 : Nat)) ∧ inBounds (buyer.crateBalance 1 - (0 : Nat))
    ∧ inBounds ((-60000 : Int) + (1096 : Nat)) ∧ inBounds ((-60000 : Int) - (0 : Nat)) := by unfold inBounds; decide
theorem test_hyps_RestartEndsAllWork_lots : (demo.ring .r1).offer.map (fun o => o.lot) = some 1
    ∧ (demo.ring .r1).state ≠ .afterSale ∧ demo.lot 1 = some lot1
    ∧ (∀ q : RingNo, q ≠ .r1 → (demo.ring q).offer = none) ∧ demo.lot 2 = some lot2 :=
  ⟨by decide, by decide, by decide, fun q h => by cases q <;> first | rfl | exact absurd rfl h, by decide⟩

theorem test_hyps_LoadOfSmallTables_stalled :
    ((demo.modRing .r2 (fun x => { x with stall := .profile })).ring .r2).stall = .profile ∧ (demo.ring .r2).state = .waiting
    ∧ fieldAt (speciesBody 64 1 1 1 0 1 1) 9 1 = 1 ∧ fieldAt (profileBody 1 0 0 0 1) 19 1 = 1 := by decide

/-- A READ of one entry: each table with an entry and without one, the first and the last index, every kind of
station. -/
theorem test_hyps_ReadsChangeNothing_entries : (∀ c b, demo.takes (readFrame 200 c b)) ∧ fieldAt [0, 1, 1] 2 1 = 1
    ∧ fieldAt (be 2 511 ++ [1]) 0 2 = 511 ∧ demo.hall = some hall ∧ State.reset.hall = none
    ∧ demo.station 1 = none ∧ demo.station 30 = none ∧ (demo.station 3).map (fun x => x.device) = some (weigh idleChannel)
    ∧ (demo.station 4).map (fun x => x.device) = some (weigh drafting)
    ∧ (demo.station 5).map (fun x => x.device) = some (chute (some dispense))
    ∧ ((withContext demo 5 (chute none)).station 5).map (fun x => x.device) = some (chute none)
    ∧ (demo.station 9).map (fun x => x.device) = some (gate (some session))
    ∧ ((withContext demo 9 (gate none)).station 9).map (fun x => x.device) = some (gate none)
    ∧ (demo.station 11).map (fun x => x.device) = some .icePlant
    ∧ (demo.species.find 1).isSome ∧ demo.species.find 64 = none ∧ demo.profiles.find 1 = some profile
    ∧ demo.profiles.find 16 = none ∧ (demo.crateTypes.find 1).isSome ∧ demo.crateTypes.find 8 = none
    ∧ (demo.keypads.find 1).isSome ∧ demo.keypads.find 64 = none ∧ demo.bank.accounts.find 2 = some buyer
    ∧ demo.bank.accounts.find 511 = none ∧ (demo.textLine 8).length ≤ 32 ∧ demo.lot 1 = some lot1 ∧ lot1.state = .onClock
    ∧ demo.lot 2 = some lot2 ∧ lot2.state = .queued ∧ 2 ∈ (demo.ring lot2.ring).queue
    ∧ (demo.bank.holds[1 - 1]?).isSome ∧ demo.bank.holds[16 - 1]? = none :=
  ⟨fun _ _ => takes_demo _, by and_intros <;> decide⟩
theorem test_readHolds_entry : result (after (.readHolds 200 [0, 2, 1]) demo)
    = some ([0, 2, 1, 2, 0, 201] ++ be 4 50 ++ [7] ++ be 4 43200000 ++ [0, 7, 0, 3]) := by decide

theorem test_hyps_AccountAndHoldCommands_missing : fieldAt (be 2 999 ++ be 4 1) 0 2 = 999 ∧ (999 : Nat) ≠ 0
    ∧ demo.account 999 = none ∧ (be 2 999 ++ be 4 1).length = 6 ∧ demo.takes (requestFrame 200 0x28 (be 2 999 ++ be 4 1)) :=
  ⟨by decide, by decide, by decide, by decide, takes_demo _⟩

/-- Ring 1 is HELD by the office with one claim and a resume pause, and `owed` entries of the record queue claimed. -/
def heldShort (pause owed : Nat) : State :=
  { (held true false).modRing .r1 (fun x => { x with
      claims := 1
      offer := x.offer.map (fun o => { o with profile := { profile with resumePause := pause } }) }) with
    queue := { demo.queue with owed := owed } }

theorem test_hyps_RingCommands_marks : ((held true false).ring .r1).state = .held ∧ silenced.floorLine.cond ≠ .up
    ∧ { held true false with floor := (sending (some (reply 1 [])) .due).floor }.floor.stage ≠ none
    ∧ ((after (.stopRing 200 [1]) { held true true with floorLine := silenced.floorLine }).ring .r1).clearSeen = true
    ∧ ((heldShort 0 6).ring .r1).claims < 2 ∧ demo.queue.records.length + 127 + (2 - 1) ≤ 128
    ∧ 128 < demo.queue.records.length + 128 + (2 - 1) ∧ 2 ≤ ((held true false).ring .r1).claims
    ∧ ((after (.release 200 [1]) (heldShort 0 127)).ring .r1).state = .descending
    ∧ ((after (.release 200 [1]) (heldShort 0 128)).ring .r1).stall = .claims := by decide

end Sys2Proof.Tests
end

section
/-! PROOFS. One reading of a stability tracker (R26 to R28): what the tracker becomes, that a capture which the reading
completes leaves the tracker as the reading made it, and that outside CAPTURE nothing but the tracker changes. -/

namespace Sys2Proof.Machine

/-! ## The tracker's reading (Table 2-1) -/

/-- The conditions of R26 for a quiet reading. -/
theorem Tracker.quiet_eq_true_iff (t : Tracker) (band : Nat) (gross : Int) (motion : Bool) :
    t.quiet band gross motion = true
      ↔ motion = false ∧ ∃ p, t.previous = some p ∧ (gross - p).natAbs ≤ band := by
  unfold Tracker.quiet
  cases t.previous with
  | none => simp
  | some p => simp

/-- R26: what makes a reading not quiet. -/
theorem Tracker.quiet_eq_false (t : Tracker) (band : Nat) (gross : Int) (motion : Bool)
    (h : motion = true ∨ t.previous = none ∨ t.previous.any (fun p => decide (band < (gross - p).natAbs)) = true) :
    t.quiet band gross motion = false := by
  rw [Bool.eq_false_iff, Ne, Tracker.quiet_eq_true_iff]
  rintro ⟨hm, p, hp, hle⟩
  rcases h with h | h | h
  · simp [hm] at h
  · simp [hp] at h
  · simp only [hp, Option.any_some, decide_eq_true_eq] at h
    omega

/-- R28: the overload flag puts the tracker in FAULT, from any state. -/
theorem Tracker.read_overload (t : Tracker) (cfg : WeighCfg) (now : Stamp) (gross : Int) (motion : Bool) :
    t.read cfg now gross motion true = { state := .fault, counter := 0, previous := none, held := none } := rfl

/-- R26, R28: a reading that is not quiet starts the count afresh in MOVING, from any state. -/
theorem Tracker.read_not_quiet (t : Tracker) (cfg : WeighCfg) (now : Stamp) (gross : Int) (motion : Bool)
    (h : t.quiet cfg.band gross motion = false) :
    t.read cfg now gross motion false = { state := .moving, counter := 0, previous := some gross, held := none } := by
  simp [Tracker.read, h]

/-- R26: a quiet reading in MOVING short of the stability count raises the counter. -/
theorem Tracker.read_quiet_counts (t : Tracker) (cfg : WeighCfg) (now : Stamp) (gross : Int) (motion : Bool)
    (h : t.quiet cfg.band gross motion = true) (hs : t.state = .moving) (hc : t.counter + 1 < cfg.stability) :
    t.read cfg now gross motion false
      = { state := .moving, counter := t.counter + 1, previous := some gross, held := none } := by
  simp [Tracker.read, h, hs, Nat.not_le.2 hc]

/-- R27: the quiet reading that reaches the stability count is held, and the tracker enters STABLE. -/
theorem Tracker.read_quiet_settles (t : Tracker) (cfg : WeighCfg) (now : Stamp) (gross : Int) (motion : Bool)
    (h : t.quiet cfg.band gross motion = true) (hs : t.state = .moving) (hc : t.counter + 1 = cfg.stability) :
    t.read cfg now gross motion false
      = { state := .stable, counter := cfg.stability, previous := some gross,
          held := some { gross := gross, at_ := now } } := by
  simp [Tracker.read, h, hs, hc]

/-- R27: a quiet reading in STABLE keeps the counter and the held reading. -/
theorem Tracker.read_quiet_stable (t : Tracker) (cfg : WeighCfg) (now : Stamp) (gross : Int) (motion : Bool)
    (h : t.quiet cfg.band gross motion = true) (hs : t.state = .stable) :
    t.read cfg now gross motion false = { t with previous := some gross } := by
  simp [Tracker.read, h, hs]

/-! ## What leaves the stations as they are -/

@[simp] theorem State.choose_stations (s : State) (n : Nat) : (s.choose n).2.stations = s.stations := by
  unfold State.choose; split_ifs <;> rfl

@[simp] theorem State.latchSaturated_stations (s : State) (debit credit : Nat) (dSat cSat : Bool) :
    (s.latchSaturated debit dSat credit cSat).stations = s.stations := by
  simp only [State.latchSaturated]; split_ifs <;> simp

@[simp] theorem State.postSide_stations (s : State) (n : Nat) (delta : Int) :
    (s.postSide n delta).stations = s.stations := by
  unfold State.postSide; split <;> rfl

@[simp] theorem State.move_stations (s : State) (debit credit amount : Nat) :
    (s.move debit credit amount).stations = s.stations := by
  unfold State.move; split <;> simp

@[simp] theorem State.post_stations (s : State) (debit credit amount : Nat) :
    (s.post debit credit amount).stations = s.stations := by
  unfold State.post; split <;> simp

@[simp] theorem State.addCrates_stations (s : State) (n t : Nat) (delta : Int) :
    (s.addCrates n t delta).stations = s.stations := by
  unfold State.addCrates; split <;> rfl

@[simp] theorem State.writeRecord_stations (s : State) (b : RecordBody) :
    (s.writeRecord b).stations = s.stations :=
  (congrArg State.stations (s.writeRecordAt_spec b s.clock).2 :)

/-! ## The channel at an address -/

/-- The channel at an address is read from the stations alone. -/
theorem State.weighAt_congr {s t : State} (h : t.stations = s.stations) (a : Nat) : t.weighAt a = s.weighAt a := by
  unfold State.weighAt State.station
  rw [h]

theorem State.weighAt_setChannel_self {s : State} {a : Nat} {cfg : WeighCfg} {ch : Channel}
    (h : s.weighAt a = some (cfg, ch)) (ch' : Channel) : (s.setChannel a ch').weighAt a = some (cfg, ch') := by
  rw [State.setChannel_spec, if_pos rfl, h]
  rfl

theorem State.station_setChannel_ne (s : State) {a b : Nat} (h : b ≠ a) (ch : Channel) :
    (s.setChannel a ch).station b = s.station b := by
  rw [State.setChannel, State.station_modStation, if_neg h]

theorem Station.place_device (st : Station) (c : QuayCommand) : (st.place c).1.device = st.device :=
  (congrArg Station.device (Station.place_spec st c).1 :)

/-- A command placed changes no channel. -/
@[simp] theorem State.weighAt_placeCommand (s : State) (b : Nat) (c : QuayCommand) (a : Nat) :
    (s.placeCommand b c).weighAt a = s.weighAt a := by
  have placed : (s.modStation b (fun x => (x.place c).1)).weighAt a = s.weighAt a := by
    simp only [State.weighAt, State.station_modStation]
    split_ifs with h
    · cases s.station a with
      | none => rfl
      | some st => simp only [Option.map_some, Station.place_device]
    · rfl
  unfold State.placeCommand
  cases s.station b with
  | none => rfl
  | some st =>
    simp only
    split_ifs
    · exact (State.weighAt_congr (State.latchCause_stations _ _ _ _) a).trans placed
    · exact placed
    · rfl

section
variable {s : State} {a : Nat} {cfg : WeighCfg} {ch : Channel}

/-! ## A capture leaves the tracker as it is (R34 to R38) -/

/-- The end of a draft sets the channel's state. -/
theorem State.weighAt_endDraft (h : s.weighAt a = some (cfg, ch)) (st : ChannelState) :
    (s.endDraft a ch st).weighAt a = some (cfg, { ch with state := st }) :=
  State.weighAt_setChannel_self (s := s.unreserveLot.releaseClaims 1) ((State.weighAt_congr (by simp) a).trans h) _

/-- A landing leaves the channel IDLE and its tracker as it is. -/
theorem State.weighAt_land (h : s.weighAt a = some (cfg, ch)) (d : Draft) (gross : Int) (f : CaptureFigures) :
    (s.land a ch d gross f).weighAt a = some (cfg, { ch with state := .idle }) := by
  unfold State.land
  rw [State.weighAt_placeCommand]
  exact State.weighAt_setChannel_self ((State.weighAt_congr (by simp) a).trans h) _

/-- A capture, landed or refused, leaves the channel IDLE and its tracker as it is. -/
theorem State.weighAt_capture (h : s.weighAt a = some (cfg, ch)) (d : Draft) (gross : Int) :
    (s.capture a cfg ch d gross).weighAt a = some (cfg, { ch with state := .idle }) := by
  simp only [State.capture]
  split_ifs
  · rw [State.weighAt_placeCommand, State.weighAt_endDraft h]
  · rw [State.weighAt_placeCommand, State.weighAt_endDraft h]
  · exact State.weighAt_land h d gross _

/-- What the capture test can do: nothing, or the capture of the held gross, in CAPTURE and STABLE alone (R34). -/
theorem State.captureIfStable_cases (h : s.weighAt a = some (cfg, ch)) :
    s.captureIfStable a = s
      ∨ ∃ d r, ch.state = .capture d ∧ ch.tracker.state = .stable ∧ ch.tracker.held = some r
          ∧ s.captureIfStable a = s.capture a cfg ch d r.gross := by
  simp only [State.captureIfStable, h]
  split
  · rename_i d r hst htr hheld
    exact .inr ⟨d, r, hst, htr, hheld, rfl⟩
  · exact .inl rfl

theorem State.captureIfStable_tracker (h : s.weighAt a = some (cfg, ch)) :
    ((s.captureIfStable a).weighAt a).map (fun x => x.2.tracker) = some ch.tracker := by
  obtain e | ⟨d, r, -, -, -, e⟩ := State.captureIfStable_cases h
  · simp [e, h]
  · simp [e, State.weighAt_capture h]

/-! ## A reading at a channel (R25 to R28, R34) -/

theorem State.weighReading_eq (h : s.weighAt a = some (cfg, ch)) (gross : Int) (motion overload : Bool) :
    s.weighReading a gross motion overload
      = (s.setChannel a { ch with tracker := ch.tracker.read cfg s.clock gross motion overload }).captureIfStable a := by
  simp only [State.weighReading, h]

/-- The tracker after a reading is the tracker's own reading, whether or not a capture follows. -/
theorem State.weighReading_tracker (h : s.weighAt a = some (cfg, ch)) (gross : Int) (motion overload : Bool) :
    ((s.weighReading a gross motion overload).weighAt a).map (fun x => x.2.tracker)
      = some (ch.tracker.read cfg s.clock gross motion overload) := by
  rw [State.weighReading_eq h, State.captureIfStable_tracker (State.weighAt_setChannel_self h _)]

/-- A reading that leaves the tracker not STABLE makes no capture: the channel keeps its state and its draft. -/
theorem State.weighReading_of_not_stable (h : s.weighAt a = some (cfg, ch)) (gross : Int) (motion overload : Bool)
    (hn : (ch.tracker.read cfg s.clock gross motion overload).state ≠ .stable) :
    (s.weighReading a gross motion overload).weighAt a
      = some (cfg, { ch with tracker := ch.tracker.read cfg s.clock gross motion overload }) := by
  have hset := State.weighAt_setChannel_self h { ch with tracker := ch.tracker.read cfg s.clock gross motion overload }
  rw [State.weighReading_eq h]
  obtain e | ⟨d, r, -, hst, -, -⟩ := State.captureIfStable_cases hset
  · rw [e, hset]
  · exact absurd hst hn

/-- A reading taken outside CAPTURE changes the tracker alone. -/
theorem State.weighReading_of_no_draft (h : s.weighAt a = some (cfg, ch)) (gross : Int) (motion overload : Bool)
    (hn : ∀ d, ch.state ≠ .capture d) :
    s.weighReading a gross motion overload
      = s.setChannel a { ch with tracker := ch.tracker.read cfg s.clock gross motion overload } := by
  rw [State.weighReading_eq h]
  obtain e | ⟨d, r, hd, -, -, -⟩ := State.captureIfStable_cases (State.weighAt_setChannel_self h
    { ch with tracker := ch.tracker.read cfg s.clock gross motion overload })
  · exact e
  · exact absurd hd (hn d)

end

/-- Settles O27: every clause reads off what the tracker's own reading is; a capture that follows a STABLE reading
keeps the tracker, and outside CAPTURE the step is the writing of the tracker alone. -/
theorem trackerReadsByRule : Obligations.TrackerReadsByRule := by
  unfold Obligations.TrackerReadsByRule
  intro s a gross motion overload cfg ch h
  refine ⟨?overload, ?notQuiet, ?quiet, ?noDraft⟩
  case overload =>
    rintro rfl
    have hr := ch.tracker.read_overload cfg s.clock gross motion
    rw [State.weighReading_of_not_stable h gross motion true (by simp [hr]), hr]
  case notQuiet =>
    rintro rfl hq
    have hr := ch.tracker.read_not_quiet cfg s.clock gross motion (Tracker.quiet_eq_false _ _ _ _ hq)
    rw [State.weighReading_of_not_stable h gross motion false (by simp [hr]), hr]
  case quiet =>
    rintro p hp rfl rfl hle
    have hq : ch.tracker.quiet cfg.band gross false = true :=
      (Tracker.quiet_eq_true_iff _ _ _ _).2 ⟨rfl, p, hp, hle⟩
    refine ⟨fun hs hc => ?_, fun hs hc => ?_, fun hs => ?_⟩
    · have hr := ch.tracker.read_quiet_counts cfg s.clock gross false hq hs hc
      rw [State.weighReading_of_not_stable h gross false false (by simp [hr]), hr]
    · rw [State.weighReading_tracker h, Tracker.read_quiet_settles _ _ _ _ _ hq hs hc]
    · rw [State.weighReading_tracker h, Tracker.read_quiet_stable _ _ _ _ _ hq hs]
  case noDraft =>
    intro hn
    rw [State.weighReading_of_no_draft h gross motion overload hn, State.weighAt_setChannel_self h]
    exact ⟨fun b hb => s.station_setChannel_ne hb _, rfl, rfl⟩

end Sys2Proof.Machine
end

section
/-! PROOFS. The figures of a sale (R80 to R82): the bounds of the sold net and of what it leaves on the lot, that the
parts of a lot sold in parts add up to its net, the value's rounding, and the bounds of a levy. -/

namespace Sys2Proof.Machine

/-! ## The sold net (R80) -/

/-- R80: a sale of all the crates takes the whole net. -/
@[simp] theorem soldNet_all (nr cr : Nat) : soldNet nr cr cr = nr := if_pos rfl

/-- R80: a sale of some of the crates takes its truncated share. -/
theorem soldNet_of_ne (nr : Nat) {cr k : Nat} (h : k ≠ cr) : soldNet nr cr k = nr * k / cr := if_neg h

/-- A sale takes no more than the lot's net. -/
theorem soldNet_le (nr : Nat) {cr k : Nat} (hk : k ≤ cr) : soldNet nr cr k ≤ nr := by
  by_cases h : k = cr
  · rw [h, soldNet_all]
  · rw [soldNet_of_ne nr h]
    exact Nat.div_le_of_le_mul (Nat.mul_comm cr nr ▸ Nat.mul_le_mul_left nr hk)

/-- R80: every crate sold carries at least one wu. -/
theorem le_soldNet {nr cr k : Nat} (hk : k ≤ cr) (hn : cr ≤ nr) : k ≤ soldNet nr cr k := by
  by_cases h : k = cr
  · rwa [h, soldNet_all]
  · rw [soldNet_of_ne nr h, Nat.le_div_iff_mul_le (by omega), Nat.mul_comm k]
    exact Nat.mul_le_mul_right k hn

/-- R80, R89: every crate left carries at least one wu. Scaled by `cr`, the crates left take `nr * (cr - k)` of the net,
at least `cr * (cr - k)` since `cr ≤ nr`, so the share sold is at most `nr - (cr - k)`. -/
theorem sub_le_sub_soldNet {nr cr k : Nat} (hk : k ≤ cr) (hn : cr ≤ nr) : cr - k ≤ nr - soldNet nr cr k := by
  by_cases h : k = cr
  · simp [h]
  · have hleft : cr * (cr - k) ≤ nr * (cr - k) := Nat.mul_le_mul_right _ hn
    have hshare : nr * k ≤ cr * (nr - (cr - k)) := by
      calc nr * k = nr * cr - nr * (cr - k) := by rw [← Nat.mul_sub, Nat.sub_sub_self hk]
        _ ≤ nr * cr - cr * (cr - k) := Nat.sub_le_sub_left hleft _
        _ = cr * (nr - (cr - k)) := by rw [Nat.mul_comm nr, ← Nat.mul_sub]
    have hw : soldNet nr cr k ≤ nr - (cr - k) := by
      rw [soldNet_of_ne nr h]
      exact Nat.div_le_of_le_mul hshare
    omega

/-- R80: the sold nets of all a lot's crates, sold in parts, add up to its net: each part leaves the net it does not
take, and the last part, being all the crates that remain, takes what is left. -/
theorem soldParts_sum (nr : Nat) {ks : List Nat} (h : ks ≠ []) : (soldParts nr ks.sum ks).sum = nr := by
  induction ks generalizing nr with
  | nil => exact absurd rfl h
  | cons k rest ih =>
    cases rest with
    | nil => simp [soldParts]
    | cons k' rest =>
      have hw := soldNet_le nr (Nat.le_add_right k (k' :: rest).sum)
      rw [List.sum_cons, soldParts, Nat.add_sub_cancel_left, List.sum_cons, ih _ (List.cons_ne_nil _ _)]
      exact Nat.add_sub_cancel' hw

/-! ## The value (R81) -/

/-- R81: a product whose last two digits are 50 or more rounds up. -/
theorem saleValue_round_up {w p : Nat} (h : 50 ≤ w * p % 100) : saleValue w p = w * p / 100 + 1 := by
  unfold saleValue
  omega

/-- R81: a product whose last two digits are 49 or less rounds down. -/
theorem saleValue_round_down {w p : Nat} (h : w * p % 100 ≤ 49) : saleValue w p = w * p / 100 := by
  unfold saleValue
  omega

/-- R81: a product below 50 gives the value 0. -/
theorem saleValue_eq_zero {w p : Nat} (h : w * p < 50) : saleValue w p = 0 := by
  rw [saleValue_round_down (by omega)]
  omega

/-! ## The levies (R82) -/

/-- R82: a rate of 0 gives no levy. -/
@[simp] theorem levy_rate_zero (v : Nat) : levy v 0 = 0 := by simp [levy]

/-- R82: a value of 0 gives no levy. -/
@[simp] theorem levy_value_zero (rate : Nat) : levy 0 rate = 0 := by simp [levy]

/-- R82: a levy is at most a fifth of the value, rounded half up, as the rate is at most 2,000 bp. -/
theorem levy_le_fifth (v : Nat) {rate : Nat} (h : rate ≤ 2000) : levy v rate ≤ (2 * v + 5) / 10 := by
  have hrate : v * rate ≤ v * 2000 := Nat.mul_le_mul_left v h
  unfold levy
  omega

/-- R82: a levy never exceeds the value. -/
theorem levy_le (v : Nat) {rate : Nat} (h : rate ≤ 2000) : levy v rate ≤ v := by
  have hfifth := levy_le_fifth v h
  omega

/-- Settles O45: the three rules' figures are the definitions, their bounds the lemmas above, and a lot with crates
left is sold in at least one part. -/
theorem soldNetAndLevies : Obligations.SoldNetAndLevies := by
  unfold Obligations.SoldNetAndLevies
  refine ⟨?net, ?parts, by decide, ?value, by decide, by decide, ?levies, by decide, by decide⟩
  case net =>
    intro nr cr k _ hk hn
    exact ⟨rfl, le_soldNet hk hn, soldNet_le nr hk, sub_le_sub_soldNet hk hn⟩
  case parts =>
    rintro nr cr ks hcr - - rfl
    have hne : ks ≠ [] := by
      rintro rfl
      simp at hcr
    exact soldParts_sum nr hne
  case value =>
    intro w p
    exact ⟨rfl, saleValue_round_up, saleValue_round_down, saleValue_eq_zero⟩
  case levies =>
    intro v rate
    exact ⟨rfl, levy_rate_zero v, levy_value_zero rate, fun h => ⟨levy_le v h, levy_le_fifth v h⟩⟩

end Sys2Proof.Machine
end
